-- ==== Sys2Proof/Word.lean ====
section
/-! DEFINITION. The word types of the ST9+ core: bytes, 16-bit words and 22-bit physical addresses
(spec/00_scope.md R5, R7). -/

namespace Sys2Proof

/-- An 8-bit byte: a register, a memory cell, an instruction byte (00_scope.md R5). -/
abbrev Byte := BitVec 8

/-- A 16-bit word: a register pair, a memory word, a virtual address (00_scope.md R5). -/
abbrev Word := BitVec 16

/-- A 22-bit physical memory address (20_memory.md R70). -/
abbrev PhysAddr := BitVec 22

end Sys2Proof
end

