-- ==== Sys2Proof/DivwsStep.lean ====
section
/-! DEFINITION. The contract of the open parameter `DIVWS_STEP` (spec/44_muldiv.md R342, spec/92_eei_decisions.md D21)
as far as it agrees with the same rule's "C unaffected", and that it can be met (log entry 9).

`DivwsStep` is the type of the steps that meet the contract; `Config.divws` is an unknown one of them.
`divwsExample` only shows that there is one: nothing can be proved of the parameter but the contract. -/

namespace Sys2Proof

/-- What DIVWS computes: from the high pair, the low pair, the divisor, the C flag and the hidden state, the new
high pair, low pair and hidden state (44_muldiv.md R342). -/
abbrev DivwsFun := Word → Word → Word → Bool → Nat → Word × Word × Nat

/-- `n` steps with one divisor and one C, on the two pairs and the hidden state. -/
def divwsRun (f : DivwsFun) (v : Word) (c : Bool) (n : Nat) (p : Word × Word × Nat) : Word × Word × Nat :=
  match n with
  | 0 => p
  | n + 1 => divwsRun f v c n (f p.1 p.2.1 v c p.2.2)

/-- The contract of R342: where the high pair is below the divisor, sixteen steps leave the remainder in the high
pair, and in bits 14 to 0 of the low pair bits 15 to 1 of the quotient, which the RLCW that follows moves to their
places. Bit 0 is then the C that RLCW shifts in (log entry 9). DESIGN CHOICE, log entry 9: the contract is required for
every C and every hidden state on entry; R342 leaves open whether it needs C = 0. -/
def DivwsContract (f : DivwsFun) : Prop :=
  ∀ (h l v : Word) (c : Bool) (x n : Nat), h.toNat < v.toNat → n = 65536 * h.toNat + l.toNat →
    (divwsRun f v c 16 (h, l, x)).1.toNat = n % v.toNat ∧
    (divwsRun f v c 16 (h, l, x)).2.1.toNat % 32768 = n / v.toNat / 2

/-- A step by shift and subtraction, whose hidden state is the last quotient bit. -/
def divwsExample : DivwsFun := fun h l v _ x =>
  let t := 2 * h.toNat + l.toNat / 32768
  (BitVec.ofNat 16 (if v.toNat ≤ t then t - v.toNat else t), BitVec.ofNat 16 (2 * l.toNat + x % 2),
    if v.toNat ≤ t then 1 else 0)

/-- Where the high pair is below the divisor, `k` steps of the example divide the high pair followed by the next `k`
bits of the low pair; the quotient bits enter below the hidden bit. -/
theorem divwsRun_example (v : Word) (c : Bool) : ∀ (k f : Nat) (h l : Word) (x d m : Nat), 2 ^ k * f = 131072 →
    h.toNat < v.toNat → m = 2 * l.toNat + x % 2 → d = 2 ^ k * h.toNat + m / f →
    (divwsRun divwsExample v c k (h, l, x)).1.toNat = d % v.toNat ∧
    2 * (divwsRun divwsExample v c k (h, l, x)).2.1.toNat + (divwsRun divwsExample v c k (h, l, x)).2.2 % 2 =
      (2 ^ k * m + d / v.toNat) % 131072
  | 0, f, h, l, x, d, m, hf, hv, hm, hd => by
    have hl := l.isLt
    have e : d = h.toNat := by rw [hd, show f = 131072 by omega]; omega
    rw [e, Nat.mod_eq_of_lt hv, Nat.div_eq_of_lt hv]
    exact ⟨rfl, by simp only [divwsRun, Nat.pow_zero]; omega⟩
  | k + 1, f, h, l, x, d, m, hf, hv, hm, hd => by
    have hl := l.isLt
    have hw := v.isLt
    obtain ⟨q, h1, hq, e1, hlt, hs⟩ : ∃ q h1 : Nat, q < 2 ∧ h1 + q * v.toNat = 2 * h.toNat + l.toNat / 32768 ∧
        h1 < v.toNat ∧ divwsExample h l v c x = (BitVec.ofNat 16 h1, BitVec.ofNat 16 (2 * l.toNat + x % 2), q) := by
      by_cases g : v.toNat ≤ 2 * h.toNat + l.toNat / 32768
      · exact ⟨1, 2 * h.toNat + l.toNat / 32768 - v.toNat, by omega, by omega, by omega, by simp [divwsExample, g]⟩
      · exact ⟨0, 2 * h.toNat + l.toNat / 32768, by omega, by omega, by omega, by simp [divwsExample, g]⟩
    have hf1 : 2 ^ k * (2 * f) = 131072 := by rw [← hf, Nat.pow_succ]; ac_rfl
    have hf2 : 2 ^ k * f = 65536 := by rw [Nat.mul_left_comm] at hf1; omega
    have hpos : 0 < f := Nat.pos_of_ne_zero fun z => by subst z; omega
    have eh : (BitVec.ofNat 16 h1).toNat = h1 := by rw [BitVec.toNat_ofNat]; omega
    have el : (BitVec.ofNat 16 (2 * l.toNat + x % 2)).toNat = m % 65536 := by rw [BitVec.toNat_ofNat, hm]
    have ih := divwsRun_example v c k (2 * f) (BitVec.ofNat 16 h1) (BitVec.ofNat 16 (2 * l.toNat + x % 2)) q
      (2 ^ k * h1 + (2 * (m % 65536) + q) / (2 * f)) (2 * (m % 65536) + q) hf1 (by rw [eh]; exact hlt)
      (by rw [el]; omega) (by rw [eh])
    have ed : d = 2 ^ k * h1 + (2 * (m % 65536) + q) / (2 * f) + 2 ^ k * q * v.toNat := by
      have a : (2 * (m % 65536) + q) / (2 * f) = (m % 65536) / f := by
        rw [← Nat.div_div_eq_div_mul]; congr 1; omega
      have b : m / f = m % 65536 / f + m / 65536 * 2 ^ k := by
        rw [← Nat.add_mul_div_right _ _ hpos, Nat.mul_assoc, hf2]; congr 1; omega
      have g : m / 65536 = l.toNat / 32768 := by omega
      rw [hd, a, b, g, Nat.pow_succ]
      have := congrArg (2 ^ k * ·) e1
      simp only [Nat.mul_add] at this
      nlinarith
    have hvp : 0 < v.toNat := by omega
    rw [divwsRun, hs, ed, Nat.add_mul_mod_self_right, Nat.add_mul_div_right _ _ hvp]
    refine ⟨ih.1, ih.2.trans ?_⟩
    have e2 : 2 ^ (k + 1) * m = 2 ^ (k + 1) * (m % 65536) + 131072 * (2 ^ k * (m / 65536)) := by
      conv_lhs => rw [← Nat.mod_add_div m 65536]
      rw [Nat.pow_succ]; ring
    rw [e2, Nat.mul_add, Nat.pow_succ]
    generalize 2 ^ k * (m / 65536) = y
    generalize (2 ^ k * h1 + (2 * (m % 65536) + q) / (2 * f)) / v.toNat = z
    rw [show 2 ^ k * (2 * (m % 65536)) + 2 ^ k * q + z = 2 ^ k * 2 * (m % 65536) + (z + 2 ^ k * q) by ring,
      show 2 ^ k * 2 * (m % 65536) + 131072 * y + (z + 2 ^ k * q) =
        2 ^ k * 2 * (m % 65536) + (z + 2 ^ k * q) + 131072 * y by ring, Nat.add_mul_mod_self_left]

/-- The example meets the contract, so that the contract can be met. -/
theorem divwsExample_contract : DivwsContract divwsExample := by
  intro h l v c x n hv hn
  have hl := l.isLt
  have r := divwsRun_example v c 16 2 h l x n (2 * l.toNat + x % 2) rfl hv rfl (by omega)
  have hq : n / v.toNat < 65536 := Nat.div_lt_of_lt_mul (by nlinarith)
  generalize divwsRun divwsExample v c 16 (h, l, x) = p at r
  generalize n / v.toNat = q at r hq ⊢
  generalize 2 * l.toNat + x % 2 = m at r
  exact ⟨r.1, by have := r.2; omega⟩

/-- A step that meets the contract. -/
structure DivwsStep where
  step : DivwsFun := divwsExample
  contract : DivwsContract step := by exact divwsExample_contract
deriving Inhabited

end Sys2Proof
end

