-- ==== Sys2Proof/Config.lean ====
section
/-! DEFINITION. What an implementation fixes, and the values the spec leaves open.

The device constants are the defaults of spec/92_eei_decisions.md D1 and D2 (log entry 2). The opaque
constants are the free values: each has no body, so nothing can be proved of the value it stands for
(log entries 5 to 9). They are applied to the counter `fresh` of the machine's state, which advances with
every instruction, so that every execution meets a value of its own. -/

namespace Sys2Proof

/-- The two memory address spaces, program and data (20_memory.md R60). -/
inductive Space
  | prog
  | data
deriving DecidableEq, Repr

/-- The six condition flags of FLAGR (10_state.md R31). -/
inductive FlagName
  | c | z | s | v | d | h
deriving DecidableEq, Repr

/-- Which read of an instruction asks for a byte. Two reads of one address by one instruction are two
reads (41_alu2.md R203 steps 4 and 5), so each has a free value of its own where the address has no memory. -/
inductive ReadRole
  /-- The fetch of an instruction byte. -/
  | fetch
  /-- The read of a source operand or of a popped value. -/
  | source
  /-- The read of a destination operand before it is written. -/
  | dest
  /-- The read of the divide-by-zero vector. -/
  | vector
deriving DecidableEq, Repr

namespace Config

/-- CICR is R230 (10_state.md R25, R35). -/
def regCICR : Byte := 230
/-- FLAGR is R231 (10_state.md R25, R31). -/
def regFLAGR : Byte := 231
/-- `REG_RP0`, default 232 (92_eei_decisions.md D2). PRESUMED, log entry 2. -/
def regRP0 : Byte := 232
/-- `REG_RP1`, default 233 (92_eei_decisions.md D2). PRESUMED, log entry 2. -/
def regRP1 : Byte := 233
/-- PPR is R234 (10_state.md R25, R27). -/
def regPPR : Byte := 234
/-- `REG_USP`, the high byte of the user stack pointer, default 236 (92_eei_decisions.md D1). PRESUMED, log entry 2. -/
def regUSP : Byte := 236
/-- `REG_SSP`, the high byte of the system stack pointer, default 238 (92_eei_decisions.md D1). PRESUMED, log entry 2. -/
def regSSP : Byte := 238

/-- Program-memory location of the high byte of the divide-by-zero vector; the low byte follows
(20_memory.md R68, R73). -/
def divideVector : Word := 2

/-- The longest instruction has six bytes (30_encoding.md R90). -/
def maxInstrBytes : Nat := 6

/-- The bit an instruction writes into a flag that its rule calls undefined
(93_implementation_defined.md U5): a free value, one for each flag and execution. Log entry 5. -/
opaque freeFlag : Nat → FlagName → Bool

/-- The branch decision of DJNZ and DWJNZ on a counter in group E or F
(70_reset_and_hazards.md R500, 93_implementation_defined.md U6): a free value. Log entry 6. -/
opaque freeBranch : Nat → Bool

/-- The high byte of a register-file stack pointer after LINK, LINKU, UNLINK, UNLINKU
(93_implementation_defined.md U4): a free value. Log entry 7. -/
opaque freeStackHigh : Nat → Byte

/-- What a read of an address without memory returns (92_eei_decisions.md D6,
93_implementation_defined.md U13): a free value for each execution, kind of read, space and address. Log entry 8. -/
opaque unbackedByte : Nat → ReadRole → Space → Word → Byte

/-- The parameter `DIVWS_STEP` with its contract (44_muldiv.md R342, 92_eei_decisions.md D21): a free value among
the steps that meet the contract. Log entry 9. -/
opaque divws : DivwsStep

/-- `DIVWS_STEP`: what one DIVWS does to the two dividend pairs and to its hidden step state
(44_muldiv.md R342). -/
def divwsStep : DivwsFun := divws.step

/-- All that is known of `DIVWS_STEP`: its contract (44_muldiv.md R342). -/
theorem divwsStep_contract : DivwsContract divwsStep := divws.contract

end Config

end Sys2Proof
end

