-- ==== Sys2Proof/Syntax.lean ====
section
/-! DEFINITION. The instructions of the ST9+ core (spec/30_encoding.md, spec/opcode_table.json).

`Instr` has one constructor per instruction of the opcode table; where the table has a row for each
operand form of an instruction, the form is the constructor's argument, so that every row is one
constructor of `Instr` applied to one constructor of its form type (log entry 27). The form names `a1` to
`a23` and `w1` to `w26` are those of spec/41_alu2.md R201 and R202. -/

namespace Sys2Proof

/-- The number n of a working register `rn`, 0 to 15 (30_encoding.md R95). -/
abbrev WReg := BitVec 4

/-- The number n of a working register pair `rrn`, an even number 0 to 14 (30_encoding.md R97). -/
abbrev WPair := BitVec 4

/-- A register-file address, `Rn` (30_encoding.md R94). -/
abbrev Reg := BitVec 8

/-- The even address of a register pair, `RRn` (30_encoding.md R96). -/
abbrev RegPair := BitVec 8

/-- The two-operand operations that the K nibble selects (30_encoding.md R100). -/
inductive AluOp
  | or | and | sbc | adc | add | sub | xor | tcm | cp | tm
deriving DecidableEq, Repr

/-- The byte operand forms whose K nibble stands in a later byte (41_alu2.md R201, 30_encoding.md R120). -/
inductive KByteForm
  /-- `(rd),Rs` -/
  | a5 (rd : WReg) (rs : Reg)
  /-- `Rd,(rs)` -/
  | a6 (rd : Reg) (rs : WReg)
  /-- `Rd,(rrs)` -/
  | a7 (rd : Reg) (rrs : WPair)
  /-- `(rrd),Rs` -/
  | a8 (rrd : WPair) (rs : Reg)
  /-- `Rd,(rrs)+` -/
  | a9 (rd : Reg) (rrs : WPair)
  /-- `(rrd)+,Rs` -/
  | a10 (rrd : WPair) (rs : Reg)
  /-- `Rd,-(rrs)` -/
  | a11 (rd : Reg) (rrs : WPair)
  /-- `-(rrd),Rs` -/
  | a12 (rrd : WPair) (rs : Reg)
  /-- `rd,rrn(rrx)` -/
  | a13 (rd : WReg) (rrn rrx : WPair)
  /-- `rrn(rrx),rs` -/
  | a14 (rrn rrx : WPair) (rs : WReg)
  /-- `Rd,N(rrx)` -/
  | a15 (rd : Reg) (n : Byte) (rrx : WPair)
  /-- `Rd,NN(rrx)` -/
  | a16 (rd : Reg) (nn : Word) (rrx : WPair)
  /-- `N(rrx),Rs` -/
  | a17 (n : Byte) (rrx : WPair) (rs : Reg)
  /-- `NN(rrx),Rs` -/
  | a18 (nn : Word) (rrx : WPair) (rs : Reg)
  /-- `rd,NN` -/
  | a19 (rd : WReg) (nn : Word)
  /-- `NN,rs` -/
  | a20 (nn : Word) (rs : WReg)
  /-- `(RRd),(rrs)` -/
  | a21 (rrd : RegPair) (rrs : WPair)
  /-- `(rrd),#N` -/
  | a22 (rrd : WPair) (n : Byte)
  /-- `NN,#N` -/
  | a23 (nn : Word) (n : Byte)
deriving DecidableEq, Repr

/-- The byte operand forms of the two-operand arithmetic and logic instructions (41_alu2.md R201). -/
inductive AluByteForm
  /-- `rd,rs` -/
  | a1 (rd rs : WReg)
  /-- `rd,(rs)` -/
  | a2 (rd rs : WReg)
  /-- `Rd,Rs` -/
  | a3 (rd rs : Reg)
  /-- `Rd,#N` -/
  | a4 (rd : Reg) (n : Byte)
  /-- Forms A5 to A23. -/
  | k (f : KByteForm)
deriving DecidableEq, Repr

/-- The word operand forms whose K nibble stands in a later byte (41_alu2.md R202, 30_encoding.md R120). -/
inductive KWordForm
  /-- `(rd),RRs` -/
  | w7 (rd : WReg) (rrs : RegPair)
  /-- `RRd,(rs)` -/
  | w8 (rrd : RegPair) (rs : WReg)
  /-- `RRd,(rrs)` -/
  | w9 (rrd : RegPair) (rrs : WPair)
  /-- `RRd,(rrs)+` -/
  | w10 (rrd : RegPair) (rrs : WPair)
  /-- `(rrd)+,RRs` -/
  | w11 (rrd : WPair) (rrs : RegPair)
  /-- `RRd,-(rrs)` -/
  | w12 (rrd : RegPair) (rrs : WPair)
  /-- `-(rrd),RRs` -/
  | w13 (rrd : WPair) (rrs : RegPair)
  /-- `rrd,rrn(rrx)` -/
  | w14 (rrd rrn rrx : WPair)
  /-- `rrn(rrx),rrs` -/
  | w15 (rrn rrx rrs : WPair)
  /-- `RRd,N(rrx)` -/
  | w16 (rrd : RegPair) (n : Byte) (rrx : WPair)
  /-- `RRd,NN(rrx)` -/
  | w17 (rrd : RegPair) (nn : Word) (rrx : WPair)
  /-- `N(rrx),RRs` -/
  | w18 (n : Byte) (rrx : WPair) (rrs : RegPair)
  /-- `NN(rrx),RRs` -/
  | w19 (nn : Word) (rrx : WPair) (rrs : RegPair)
  /-- `rrd,NN` -/
  | w20 (rrd : WPair) (nn : Word)
  /-- `NN,rrs` -/
  | w21 (nn : Word) (rrs : WPair)
  /-- `(rrd),RRs` -/
  | w22 (rrd : WPair) (rrs : RegPair)
  /-- `(rrd),#NN` -/
  | w23 (rrd : WPair) (nn : Word)
  /-- `N(rrx),#NN` -/
  | w24 (n : Byte) (rrx : WPair) (nn : Word)
  /-- `NN(rrx),#NN: the offset, the index pair, the immediate` -/
  | w25 (ofs : Word) (rrx : WPair) (nn : Word)
  /-- `NN,#NN: the address, the immediate` -/
  | w26 (addr : Word) (nn : Word)
deriving DecidableEq, Repr

/-- The word operand forms of the two-operand arithmetic and logic instructions (41_alu2.md R202). -/
inductive AluWordForm
  /-- `rrd,rrs` -/
  | w1 (rrd rrs : WPair)
  /-- `rrd,(rrs)` -/
  | w2 (rrd rrs : WPair)
  /-- `(rrd),rrs` -/
  | w3 (rrd rrs : WPair)
  /-- `(rrd),(rrs)` -/
  | w4 (rrd rrs : WPair)
  /-- `RRd,RRs` -/
  | w5 (rrd rrs : RegPair)
  /-- `RRd,#NN` -/
  | w6 (rrd : RegPair) (nn : Word)
  /-- Forms W7 to W26. -/
  | k (f : KWordForm)
deriving DecidableEq, Repr

/-- The operand forms of LD (40_load.md R141 to R170), named by their first byte; `k` covers the forms
whose K nibble is F (30_encoding.md R120). -/
inductive LdForm
  /-- `rd,Rs` -/
  | x8 (rd : WReg) (rs : Reg)
  /-- `Rd,rs` -/
  | x9 (rd : Reg) (rs : WReg)
  /-- `rd,#N` -/
  | xC (rd : WReg) (n : Byte)
  /-- `rd,(rs)` -/
  | e4 (rd rs : WReg)
  /-- `(rd),rs` -/
  | e5 (rd rs : WReg)
  /-- `N(rx),rs` -/
  | b2 (n : Byte) (rx rs : WReg)
  /-- `rd,N(rx)` -/
  | b3 (rd : WReg) (n : Byte) (rx : WReg)
  /-- `Rd,Rs` -/
  | f4 (rd rs : Reg)
  /-- `Rd,#N` -/
  | f5 (rd : Reg) (n : Byte)
  /-- `rd,(rrs)` -/
  | b5Load (rd : WReg) (rrs : WPair)
  /-- `(rrd),rs` -/
  | b5Store (rrd : WPair) (rs : WReg)
  /-- `(rd)+,(rrs)+` -/
  | d7Load (rd : WReg) (rrs : WPair)
  /-- `(rrd)+,(rs)+` -/
  | d7Store (rrd : WPair) (rs : WReg)
  /-- Forms A5 to A23 with K = F. -/
  | k (f : KByteForm)
deriving DecidableEq, Repr

/-- The operand forms of LDW (40_load.md R176 to R199), named by their first byte; `k` covers the forms
whose K nibble is F (30_encoding.md R120). -/
inductive LdwForm
  /-- `rrd,rrs` -/
  | e3 (rrd rrs : WPair)
  /-- `rrd,(rrs)` -/
  | e3Load (rrd rrs : WPair)
  /-- `(rrd),rrs` -/
  | e3Store (rrd rrs : WPair)
  /-- `(rrd),(rrs)` -/
  | e3Move (rrd rrs : WPair)
  /-- `RRd,RRs` -/
  | ef (rrd rrs : RegPair)
  /-- `RRd,#NN` -/
  | bf (rrd : RegPair) (nn : Word)
  /-- `N(rx),rrs` -/
  | deStore (n : Byte) (rx : WReg) (rrs : WPair)
  /-- `rrd,N(rx)` -/
  | deLoad (rrd : WPair) (n : Byte) (rx : WReg)
  /-- Forms W7 to W26 with K = F. -/
  | k (f : KWordForm)
deriving DecidableEq, Repr

/-- A byte operand named directly or through a register: `[x0] [R]` and `[x1] [R]` (42_alu1.md R260), and the
register operands of PUSH, PUSHU, POP, POPU (43_stack.md R305 to R311). -/
inductive ByteTarget
  /-- `R` -/
  | direct (r : Reg)
  /-- `(R)` -/
  | indirect (r : Reg)
deriving DecidableEq, Repr

/-- The source operand of PUSH and PUSHU (43_stack.md R305, R307). -/
inductive PushForm
  /-- `R or (R)` -/
  | reg (t : ByteTarget)
  /-- `#N` -/
  | imm (n : Byte)
deriving DecidableEq, Repr

/-- The source operand of PUSHW and PUSHUW (43_stack.md R306, R308). -/
inductive PushWordForm
  /-- `RR` -/
  | pair (rrs : RegPair)
  /-- `#NN` -/
  | imm (nn : Word)
deriving DecidableEq, Repr

/-- The operand of PEA and PEAU (43_stack.md R313, R314). -/
inductive PeaForm
  /-- `N(RRx)` -/
  | short (n : Byte) (rrx : RegPair)
  /-- `NN(RRx)` -/
  | long (nn : Word) (rrx : RegPair)
deriving DecidableEq, Repr

/-- Whether a two-bit instruction takes the source bit plain or complemented (45_boolean.md R351 to R355). -/
inductive BitSource
  /-- `rs.bs` -/
  | plain
  /-- `rs.!bs` -/
  | complemented
deriving DecidableEq, Repr

/-- The operand of BTSET (45_boolean.md R354). -/
inductive BtsetForm
  /-- `rd.b` -/
  | reg (b : BitVec 3) (rd : WReg)
  /-- `(rr).b` -/
  | mem (b : BitVec 3) (rr : WPair)
deriving DecidableEq, Repr

/-- The target of CALL (46_control.md R376). -/
inductive CallForm
  /-- `NN` -/
  | direct (nn : Word)
  /-- `(RR)` -/
  | indirect (rr : RegPair)
deriving DecidableEq, Repr

/-- The target of JPS and CALLS (46_control.md R375, R377). -/
inductive FarForm
  /-- `seg,NN` -/
  | direct (seg : BitVec 6) (nn : Word)
  /-- `(R),(rr)` -/
  | indirect (r : Reg) (rr : WPair)
deriving DecidableEq, Repr

/-- The instructions: one constructor per instruction of spec/opcode_table.json. -/
inductive Instr
  /-- `OR dst,src (41_alu2.md R210 to R219)` -/
  | or (f : AluByteForm)
  /-- `AND dst,src (41_alu2.md R210 to R219)` -/
  | and (f : AluByteForm)
  /-- `SBC dst,src (41_alu2.md R210 to R219)` -/
  | sbc (f : AluByteForm)
  /-- `ADC dst,src (41_alu2.md R210 to R219)` -/
  | adc (f : AluByteForm)
  /-- `ADD dst,src (41_alu2.md R210 to R219)` -/
  | add (f : AluByteForm)
  /-- `SUB dst,src (41_alu2.md R210 to R219)` -/
  | sub (f : AluByteForm)
  /-- `XOR dst,src (41_alu2.md R210 to R219)` -/
  | xor (f : AluByteForm)
  /-- `TCM dst,src (41_alu2.md R210 to R219)` -/
  | tcm (f : AluByteForm)
  /-- `CP dst,src (41_alu2.md R210 to R219)` -/
  | cp (f : AluByteForm)
  /-- `TM dst,src (41_alu2.md R210 to R219)` -/
  | tm (f : AluByteForm)
  /-- `ORW dst,src (41_alu2.md R220 to R229)` -/
  | orw (f : AluWordForm)
  /-- `ANDW dst,src (41_alu2.md R220 to R229)` -/
  | andw (f : AluWordForm)
  /-- `SBCW dst,src (41_alu2.md R220 to R229)` -/
  | sbcw (f : AluWordForm)
  /-- `ADCW dst,src (41_alu2.md R220 to R229)` -/
  | adcw (f : AluWordForm)
  /-- `ADDW dst,src (41_alu2.md R220 to R229)` -/
  | addw (f : AluWordForm)
  /-- `SUBW dst,src (41_alu2.md R220 to R229)` -/
  | subw (f : AluWordForm)
  /-- `XORW dst,src (41_alu2.md R220 to R229)` -/
  | xorw (f : AluWordForm)
  /-- `TCMW dst,src (41_alu2.md R220 to R229)` -/
  | tcmw (f : AluWordForm)
  /-- `CPW dst,src (41_alu2.md R220 to R229)` -/
  | cpw (f : AluWordForm)
  /-- `TMW dst,src (41_alu2.md R220 to R229)` -/
  | tmw (f : AluWordForm)
  /-- `LD dst,src (40_load.md R141 to R170)` -/
  | ld (f : LdForm)
  /-- `LDW dst,src (40_load.md R176 to R199)` -/
  | ldw (f : LdwForm)
  /-- `LDPP (rrd)+,(rrs)+ (40_load.md R172)` -/
  | ldpp (rrd rrs : WPair)
  /-- `LDDP (rrd)+,(rrs)+ (40_load.md R173)` -/
  | lddp (rrd rrs : WPair)
  /-- `LDPD (rrd)+,(rrs)+ (40_load.md R174)` -/
  | ldpd (rrd rrs : WPair)
  /-- `LDDD (rrd)+,(rrs)+ (40_load.md R175)` -/
  | lddd (rrd rrs : WPair)
  /-- `INC dst (42_alu1.md R262)` -/
  | inc (t : ByteTarget)
  /-- `DEC dst (42_alu1.md R263)` -/
  | dec (t : ByteTarget)
  /-- `CLR dst (42_alu1.md R266)` -/
  | clr (t : ByteTarget)
  /-- `CPL dst (42_alu1.md R267)` -/
  | cpl (t : ByteTarget)
  /-- `SWAP dst (42_alu1.md R268)` -/
  | swap (t : ByteTarget)
  /-- `DA dst (42_alu1.md R270)` -/
  | da (t : ByteTarget)
  /-- `RLC dst (42_alu1.md R271)` -/
  | rlc (t : ByteTarget)
  /-- `RRC dst (42_alu1.md R272)` -/
  | rrc (t : ByteTarget)
  /-- `ROL dst (42_alu1.md R273)` -/
  | rol (t : ByteTarget)
  /-- `ROR dst (42_alu1.md R274)` -/
  | ror (t : ByteTarget)
  /-- `SRA dst (42_alu1.md R277)` -/
  | sra (t : ByteTarget)
  /-- `INCW RR (42_alu1.md R264)` -/
  | incw (rr : RegPair)
  /-- `DECW RR (42_alu1.md R265)` -/
  | decw (rr : RegPair)
  /-- `RLCW RR (42_alu1.md R275)` -/
  | rlcw (rr : RegPair)
  /-- `RRCW RR (42_alu1.md R276)` -/
  | rrcw (rr : RegPair)
  /-- `SRAW RR (42_alu1.md R278)` -/
  | sraw (rr : RegPair)
  /-- `PUSH src (43_stack.md R305)` -/
  | push (f : PushForm)
  /-- `PUSHU src (43_stack.md R307)` -/
  | pushu (f : PushForm)
  /-- `PUSHW src (43_stack.md R306)` -/
  | pushw (f : PushWordForm)
  /-- `PUSHUW src (43_stack.md R308)` -/
  | pushuw (f : PushWordForm)
  /-- `POP dst (43_stack.md R309)` -/
  | pop (t : ByteTarget)
  /-- `POPU dst (43_stack.md R311)` -/
  | popu (t : ByteTarget)
  /-- `POPW RR (43_stack.md R310)` -/
  | popw (rr : RegPair)
  /-- `POPUW RR (43_stack.md R312)` -/
  | popuw (rr : RegPair)
  /-- `PEA src (43_stack.md R313)` -/
  | pea (f : PeaForm)
  /-- `PEAU src (43_stack.md R314)` -/
  | peau (f : PeaForm)
  /-- `LINK RR,#N (43_stack.md R315)` -/
  | link (rr : RegPair) (n : Byte)
  /-- `LINKU RR,#N (43_stack.md R316)` -/
  | linku (rr : RegPair) (n : Byte)
  /-- `UNLINK RR (43_stack.md R317)` -/
  | unlink (rr : RegPair)
  /-- `UNLINKU RR (43_stack.md R318)` -/
  | unlinku (rr : RegPair)
  /-- `MUL rrd,rs (44_muldiv.md R340)` -/
  | mul (rrd : WPair) (rs : WReg)
  /-- `DIV rrd,rs (44_muldiv.md R341)` -/
  | div (rrd : WPair) (rs : WReg)
  /-- `DIVWS rrh,rrl,RRs (44_muldiv.md R342)` -/
  | divws (rrh rrl : WPair) (rrs : RegPair)
  /-- `BAND rd.bd,rs.bs and rs.!bs (45_boolean.md R351)` -/
  | band (src : BitSource) (bd : BitVec 3) (rd : WReg) (bs : BitVec 3) (rs : WReg)
  /-- `BOR rd.bd,rs.bs and rs.!bs (45_boolean.md R352)` -/
  | bor (src : BitSource) (bd : BitVec 3) (rd : WReg) (bs : BitVec 3) (rs : WReg)
  /-- `BXOR rd.bd,rs.bs and rs.!bs (45_boolean.md R353)` -/
  | bxor (src : BitSource) (bd : BitVec 3) (rd : WReg) (bs : BitVec 3) (rs : WReg)
  /-- `BLD rd.bd,rs.bs and rs.!bs (45_boolean.md R355)` -/
  | bld (src : BitSource) (bd : BitVec 3) (rd : WReg) (bs : BitVec 3) (rs : WReg)
  /-- `BTSET dst.b (45_boolean.md R354)` -/
  | btset (f : BtsetForm)
  /-- `BSET rd.b (45_boolean.md R356)` -/
  | bset (b : BitVec 3) (rd : WReg)
  /-- `BRES rd.b (45_boolean.md R357)` -/
  | bres (b : BitVec 3) (rd : WReg)
  /-- `BCPL rd.b (45_boolean.md R358)` -/
  | bcpl (b : BitVec 3) (rd : WReg)
  /-- `BTJF rd.b,N (45_boolean.md R359)` -/
  | btjf (b : BitVec 3) (rd : WReg) (n : Byte)
  /-- `BTJT rd.b,N (45_boolean.md R360)` -/
  | btjt (b : BitVec 3) (rd : WReg) (n : Byte)
  /-- `JPF NN, condition code 0 (46_control.md R373)` -/
  | jpf (nn : Word)
  /-- `JPLT NN, condition code 1 (46_control.md R373)` -/
  | jplt (nn : Word)
  /-- `JPLE NN, condition code 2 (46_control.md R373)` -/
  | jple (nn : Word)
  /-- `JPULE NN, condition code 3 (46_control.md R373)` -/
  | jpule (nn : Word)
  /-- `JPOV NN, condition code 4 (46_control.md R373)` -/
  | jpov (nn : Word)
  /-- `JPMI NN, condition code 5 (46_control.md R373)` -/
  | jpmi (nn : Word)
  /-- `JPEQ NN, condition code 6 (46_control.md R373)` -/
  | jpeq (nn : Word)
  /-- `JPULT NN, condition code 7 (46_control.md R373)` -/
  | jpult (nn : Word)
  /-- `JPT NN, condition code 8 (46_control.md R373): the unconditional JP NN (R371)` -/
  | jpt (nn : Word)
  /-- `JPGE NN, condition code 9 (46_control.md R373)` -/
  | jpge (nn : Word)
  /-- `JPGT NN, condition code A (46_control.md R373)` -/
  | jpgt (nn : Word)
  /-- `JPUGT NN, condition code B (46_control.md R373)` -/
  | jpugt (nn : Word)
  /-- `JPNOV NN, condition code C (46_control.md R373)` -/
  | jpnov (nn : Word)
  /-- `JPPL NN, condition code D (46_control.md R373)` -/
  | jppl (nn : Word)
  /-- `JPNE NN, condition code E (46_control.md R373)` -/
  | jpne (nn : Word)
  /-- `JPUGE NN, condition code F (46_control.md R373)` -/
  | jpuge (nn : Word)
  /-- `JRF N, condition code 0 (46_control.md R374)` -/
  | jrf (n : Byte)
  /-- `JRLT N, condition code 1 (46_control.md R374)` -/
  | jrlt (n : Byte)
  /-- `JRLE N, condition code 2 (46_control.md R374)` -/
  | jrle (n : Byte)
  /-- `JRULE N, condition code 3 (46_control.md R374)` -/
  | jrule (n : Byte)
  /-- `JROV N, condition code 4 (46_control.md R374)` -/
  | jrov (n : Byte)
  /-- `JRMI N, condition code 5 (46_control.md R374)` -/
  | jrmi (n : Byte)
  /-- `JREQ N, condition code 6 (46_control.md R374)` -/
  | jreq (n : Byte)
  /-- `JRULT N, condition code 7 (46_control.md R374)` -/
  | jrult (n : Byte)
  /-- `JRT N, condition code 8 (46_control.md R374)` -/
  | jrt (n : Byte)
  /-- `JRGE N, condition code 9 (46_control.md R374)` -/
  | jrge (n : Byte)
  /-- `JRGT N, condition code A (46_control.md R374)` -/
  | jrgt (n : Byte)
  /-- `JRUGT N, condition code B (46_control.md R374)` -/
  | jrugt (n : Byte)
  /-- `JRNOV N, condition code C (46_control.md R374)` -/
  | jrnov (n : Byte)
  /-- `JRPL N, condition code D (46_control.md R374)` -/
  | jrpl (n : Byte)
  /-- `JRNE N, condition code E (46_control.md R374)` -/
  | jrne (n : Byte)
  /-- `JRUGE N, condition code F (46_control.md R374)` -/
  | jruge (n : Byte)
  /-- `JP (RR) (46_control.md R371)` -/
  | jp (rr : RegPair)
  /-- `JPS dst (46_control.md R375)` -/
  | jps (f : FarForm)
  /-- `CALL dst (46_control.md R376)` -/
  | call (f : CallForm)
  /-- `CALLS dst (46_control.md R377)` -/
  | calls (f : FarForm)
  /-- `RET (46_control.md R378)` -/
  | ret
  /-- `RETS (46_control.md R379)` -/
  | rets
  /-- `IRET (46_control.md R372)` -/
  | iret
  /-- `DJNZ r,N (46_control.md R380)` -/
  | djnz (r : WReg) (n : Byte)
  /-- `DWJNZ RR,N (46_control.md R381)` -/
  | dwjnz (rr : RegPair) (n : Byte)
  /-- `CPJFI rd,(rrs),N (46_control.md R382)` -/
  | cpjfi (rd : WReg) (rrs : WPair) (n : Byte)
  /-- `CPJTI rd,(rrs),N (46_control.md R383)` -/
  | cpjti (rd : WReg) (rrs : WPair) (n : Byte)
  /-- `SRP #N (47_misc.md R421)` -/
  | srp (g : BitVec 5)
  /-- `SRP0 #N (47_misc.md R422)` -/
  | srp0 (g : BitVec 5)
  /-- `SRP1 #N (47_misc.md R423)` -/
  | srp1 (g : BitVec 5)
  /-- `SPP #N (47_misc.md R424)` -/
  | spp (pg : BitVec 6)
  /-- `XCH Rd,Rs (47_misc.md R425)` -/
  | xch (rd rs : Reg)
  /-- `EXT RR (47_misc.md R426)` -/
  | ext (rr : RegPair)
  /-- `EI (47_misc.md R427)` -/
  | ei
  /-- `DI (47_misc.md R428)` -/
  | di
  /-- `SCF (47_misc.md R429)` -/
  | scf
  /-- `RCF (47_misc.md R430)` -/
  | rcf
  /-- `CCF (47_misc.md R431)` -/
  | ccf
  /-- `SPM (47_misc.md R432)` -/
  | spm
  /-- `SDM (47_misc.md R433)` -/
  | sdm
  /-- `NOP (47_misc.md R434)` -/
  | nop
  /-- `WFI (47_misc.md R435)` -/
  | wfi
  /-- `HALT (47_misc.md R436)` -/
  | halt
  /-- `ETRAP: a row of the opcode map without a meaning (47_misc.md R437)` -/
  | etrap
  /-- `ERET: a row of the opcode map without a meaning (47_misc.md R437)` -/
  | eret
deriving DecidableEq, Repr

end Sys2Proof
end

