-- ==== Sys2Proof/WellFormed.lean ====
section
/-! DEFINITION. Well-formed instructions: a working register pair `rrn` and a register pair `RRn` are named by
an even number (spec/00_scope.md R9, spec/30_encoding.md R96, R97). An encoding holds only the bits above the
lowest, so an odd pair has no encoding. -/

namespace Sys2Proof

/-- A working register pair is named by an even number (30_encoding.md R97). -/
def WPair.wf (p : WPair) : Bool := !p.getLsbD 0

/-- A register pair is named by an even address (30_encoding.md R96). -/
def RegPair.wf (p : RegPair) : Bool := !p.getLsbD 0

/-- The pairs of the byte forms A5 to A23 are even. -/
def KByteForm.wf : KByteForm → Bool
  | .a5 _ _ => true
  | .a6 _ _ => true
  | .a7 _ rrs => WPair.wf rrs
  | .a8 rrd _ => WPair.wf rrd
  | .a9 _ rrs => WPair.wf rrs
  | .a10 rrd _ => WPair.wf rrd
  | .a11 _ rrs => WPair.wf rrs
  | .a12 rrd _ => WPair.wf rrd
  | .a13 _ rrn rrx => WPair.wf rrn && WPair.wf rrx
  | .a14 rrn rrx _ => WPair.wf rrn && WPair.wf rrx
  | .a15 _ _ rrx => WPair.wf rrx
  | .a16 _ _ rrx => WPair.wf rrx
  | .a17 _ rrx _ => WPair.wf rrx
  | .a18 _ rrx _ => WPair.wf rrx
  | .a19 _ _ => true
  | .a20 _ _ => true
  | .a21 rrd rrs => RegPair.wf rrd && WPair.wf rrs
  | .a22 rrd _ => WPair.wf rrd
  | .a23 _ _ => true

/-- The pairs of the byte forms A1 to A23 are even. -/
def AluByteForm.wf : AluByteForm → Bool
  | .a1 _ _ => true
  | .a2 _ _ => true
  | .a3 _ _ => true
  | .a4 _ _ => true
  | .k f => f.wf

/-- The pairs of the word forms W7 to W26 are even. -/
def KWordForm.wf : KWordForm → Bool
  | .w7 _ rrs => RegPair.wf rrs
  | .w8 rrd _ => RegPair.wf rrd
  | .w9 rrd rrs => RegPair.wf rrd && WPair.wf rrs
  | .w10 rrd rrs => RegPair.wf rrd && WPair.wf rrs
  | .w11 rrd rrs => WPair.wf rrd && RegPair.wf rrs
  | .w12 rrd rrs => RegPair.wf rrd && WPair.wf rrs
  | .w13 rrd rrs => WPair.wf rrd && RegPair.wf rrs
  | .w14 rrd rrn rrx => WPair.wf rrd && WPair.wf rrn && WPair.wf rrx
  | .w15 rrn rrx rrs => WPair.wf rrn && WPair.wf rrx && WPair.wf rrs
  | .w16 rrd _ rrx => RegPair.wf rrd && WPair.wf rrx
  | .w17 rrd _ rrx => RegPair.wf rrd && WPair.wf rrx
  | .w18 _ rrx rrs => WPair.wf rrx && RegPair.wf rrs
  | .w19 _ rrx rrs => WPair.wf rrx && RegPair.wf rrs
  | .w20 rrd _ => WPair.wf rrd
  | .w21 _ rrs => WPair.wf rrs
  | .w22 rrd rrs => WPair.wf rrd && RegPair.wf rrs
  | .w23 rrd _ => WPair.wf rrd
  | .w24 _ rrx _ => WPair.wf rrx
  | .w25 _ rrx _ => WPair.wf rrx
  | .w26 _ _ => true

/-- The pairs of the word forms W1 to W26 are even. -/
def AluWordForm.wf : AluWordForm → Bool
  | .w1 rrd rrs => WPair.wf rrd && WPair.wf rrs
  | .w2 rrd rrs => WPair.wf rrd && WPair.wf rrs
  | .w3 rrd rrs => WPair.wf rrd && WPair.wf rrs
  | .w4 rrd rrs => WPair.wf rrd && WPair.wf rrs
  | .w5 rrd rrs => RegPair.wf rrd && RegPair.wf rrs
  | .w6 rrd _ => RegPair.wf rrd
  | .k f => f.wf

/-- The pairs of the LD forms are even. -/
def LdForm.wf : LdForm → Bool
  | .x8 _ _ => true
  | .x9 _ _ => true
  | .xC _ _ => true
  | .e4 _ _ => true
  | .e5 _ _ => true
  | .b2 _ _ _ => true
  | .b3 _ _ _ => true
  | .f4 _ _ => true
  | .f5 _ _ => true
  | .b5Load _ rrs => WPair.wf rrs
  | .b5Store rrd _ => WPair.wf rrd
  | .d7Load _ rrs => WPair.wf rrs
  | .d7Store rrd _ => WPair.wf rrd
  | .k f => f.wf

/-- The pairs of the LDW forms are even. -/
def LdwForm.wf : LdwForm → Bool
  | .e3 rrd rrs => WPair.wf rrd && WPair.wf rrs
  | .e3Load rrd rrs => WPair.wf rrd && WPair.wf rrs
  | .e3Store rrd rrs => WPair.wf rrd && WPair.wf rrs
  | .e3Move rrd rrs => WPair.wf rrd && WPair.wf rrs
  | .ef rrd rrs => RegPair.wf rrd && RegPair.wf rrs
  | .bf rrd _ => RegPair.wf rrd
  | .deStore _ _ rrs => WPair.wf rrs
  | .deLoad rrd _ _ => WPair.wf rrd
  | .k f => f.wf

/-- The pairs of the PUSHW forms are even. -/
def PushWordForm.wf : PushWordForm → Bool
  | .pair rrs => RegPair.wf rrs
  | .imm _ => true

/-- The pairs of the PEA forms are even. -/
def PeaForm.wf : PeaForm → Bool
  | .short _ rrx => RegPair.wf rrx
  | .long _ rrx => RegPair.wf rrx

/-- The pairs of the BTSET forms are even. -/
def BtsetForm.wf : BtsetForm → Bool
  | .reg _ _ => true
  | .mem _ rr => WPair.wf rr

/-- The pairs of the CALL forms are even. -/
def CallForm.wf : CallForm → Bool
  | .direct _ => true
  | .indirect rr => RegPair.wf rr

/-- The pairs of the JPS and CALLS forms are even. -/
def FarForm.wf : FarForm → Bool
  | .direct _ _ => true
  | .indirect _ rr => WPair.wf rr

/-- The pairs of an instruction are even. -/
def Instr.wf : Instr → Bool
  | .or f => f.wf
  | .and f => f.wf
  | .sbc f => f.wf
  | .adc f => f.wf
  | .add f => f.wf
  | .sub f => f.wf
  | .xor f => f.wf
  | .tcm f => f.wf
  | .cp f => f.wf
  | .tm f => f.wf
  | .orw f => f.wf
  | .andw f => f.wf
  | .sbcw f => f.wf
  | .adcw f => f.wf
  | .addw f => f.wf
  | .subw f => f.wf
  | .xorw f => f.wf
  | .tcmw f => f.wf
  | .cpw f => f.wf
  | .tmw f => f.wf
  | .ld f => f.wf
  | .ldw f => f.wf
  | .ldpp rrd rrs => WPair.wf rrd && WPair.wf rrs
  | .lddp rrd rrs => WPair.wf rrd && WPair.wf rrs
  | .ldpd rrd rrs => WPair.wf rrd && WPair.wf rrs
  | .lddd rrd rrs => WPair.wf rrd && WPair.wf rrs
  | .inc _ => true
  | .dec _ => true
  | .clr _ => true
  | .cpl _ => true
  | .swap _ => true
  | .da _ => true
  | .rlc _ => true
  | .rrc _ => true
  | .rol _ => true
  | .ror _ => true
  | .sra _ => true
  | .incw rr => RegPair.wf rr
  | .decw rr => RegPair.wf rr
  | .rlcw rr => RegPair.wf rr
  | .rrcw rr => RegPair.wf rr
  | .sraw rr => RegPair.wf rr
  | .push _ => true
  | .pushu _ => true
  | .pushw f => f.wf
  | .pushuw f => f.wf
  | .pop _ => true
  | .popu _ => true
  | .popw rr => RegPair.wf rr
  | .popuw rr => RegPair.wf rr
  | .pea f => f.wf
  | .peau f => f.wf
  | .link rr _ => RegPair.wf rr
  | .linku rr _ => RegPair.wf rr
  | .unlink rr => RegPair.wf rr
  | .unlinku rr => RegPair.wf rr
  | .mul rrd _ => WPair.wf rrd
  | .div rrd _ => WPair.wf rrd
  | .divws rrh rrl rrs => WPair.wf rrh && WPair.wf rrl && RegPair.wf rrs
  | .band _ _ _ _ _ => true
  | .bor _ _ _ _ _ => true
  | .bxor _ _ _ _ _ => true
  | .bld _ _ _ _ _ => true
  | .btset f => f.wf
  | .bset _ _ => true
  | .bres _ _ => true
  | .bcpl _ _ => true
  | .btjf _ _ _ => true
  | .btjt _ _ _ => true
  | .jpf _ => true
  | .jplt _ => true
  | .jple _ => true
  | .jpule _ => true
  | .jpov _ => true
  | .jpmi _ => true
  | .jpeq _ => true
  | .jpult _ => true
  | .jpt _ => true
  | .jpge _ => true
  | .jpgt _ => true
  | .jpugt _ => true
  | .jpnov _ => true
  | .jppl _ => true
  | .jpne _ => true
  | .jpuge _ => true
  | .jrf _ => true
  | .jrlt _ => true
  | .jrle _ => true
  | .jrule _ => true
  | .jrov _ => true
  | .jrmi _ => true
  | .jreq _ => true
  | .jrult _ => true
  | .jrt _ => true
  | .jrge _ => true
  | .jrgt _ => true
  | .jrugt _ => true
  | .jrnov _ => true
  | .jrpl _ => true
  | .jrne _ => true
  | .jruge _ => true
  | .jp rr => RegPair.wf rr
  | .jps f => f.wf
  | .call f => f.wf
  | .calls f => f.wf
  | .ret => true
  | .rets => true
  | .iret => true
  | .djnz _ _ => true
  | .dwjnz rr _ => RegPair.wf rr
  | .cpjfi _ rrs _ => WPair.wf rrs
  | .cpjti _ rrs _ => WPair.wf rrs
  | .srp _ => true
  | .srp0 _ => true
  | .srp1 _ => true
  | .spp _ => true
  | .xch _ _ => true
  | .ext rr => RegPair.wf rr
  | .ei => true
  | .di => true
  | .scf => true
  | .rcf => true
  | .ccf => true
  | .spm => true
  | .sdm => true
  | .nop => true
  | .wfi => true
  | .halt => true
  | .etrap => true
  | .eret => true

end Sys2Proof
end

