-- ==== Sys2Proof/Decode.lean ====
section
/-! DEFINITION. The decoder and the encoder (spec/30_encoding.md R90 to R122).

`decode` reads one instruction from the front of a list of bytes and answers the instruction and the bytes
after it, or the reason why the bytes are a reserved encoding (R103, R122). The functions `decodeX0` to
`decodeXF` are rules R104 to R119, one for each low nibble of the first byte. `encode` writes the bytes of an
instruction, from the same rules. -/

namespace Sys2Proof

/-- Why bytes are no instruction (30_encoding.md R103 step 5, R122). -/
inductive DecodeError
  /-- The bytes end inside an instruction. -/
  | truncated
  /-- A K nibble that R100 does not assign to the format (R122 items 1 and 2). -/
  | reservedK
  /-- A second byte that Table 15 does not list (R122 items 3 to 7). -/
  | reservedSecondByte
  /-- A literal flag bit with the wrong value (R122 item 8). -/
  | wrongFlagBit
deriving DecidableEq, Repr

/-- What decoding answers: an instruction and the bytes after it, or an error. -/
abbrev Decoded := Except DecodeError (Instr × List Byte)

/-- The high nibble of a byte (30_encoding.md R93). -/
def hiNib (b : Byte) : BitVec 4 := b.extractLsb' 4 4

/-- The low nibble of a byte (30_encoding.md R93). -/
def loNib (b : Byte) : BitVec 4 := b.extractLsb' 0 4

/-- The byte `[h | l]` (00_scope.md R12). -/
def nib (h l : BitVec 4) : Byte := h ++ l

/-- The word with high byte `h` and low byte `l` (30_encoding.md R92). -/
def word (h l : Byte) : Word := h ++ l

/-- The high byte of a word. -/
def Word.hi (w : Word) : Byte := w.extractLsb' 8 8

/-- The low byte of a word. -/
def Word.lo (w : Word) : Byte := w.extractLsb' 0 8

/-- The pair named by a nibble `rr,flag` (30_encoding.md R97). -/
def nibPair (n : BitVec 4) : WPair := n &&& 0xE#4

/-- The flag bit of a nibble `rr,flag` (30_encoding.md R97). -/
def nibFlag (n : BitVec 4) : Bool := n.getLsbD 0

/-- The pair named by a byte `RR,flag` (30_encoding.md R96). -/
def bytePair (b : Byte) : RegPair := b &&& 0xFE#8

/-- The flag bit of a byte `RR,flag` (30_encoding.md R96). -/
def byteFlag (b : Byte) : Bool := b.getLsbD 0

/-- The bit number of a bit operand `[b,f | r]` (30_encoding.md R101). -/
def bitNum (b : Byte) : BitVec 3 := b.extractLsb' 5 3

/-- The flag of a bit operand `[b,f | r]` (30_encoding.md R101). -/
def bitFlag (b : Byte) : Bool := b.getLsbD 4

/-- The operation that a K nibble selects (30_encoding.md R100); K = F is LD and stands apart. -/
def AluOp.ofK (k : BitVec 4) : Option AluOp :=
  match k with
  | 0x0#4 => some .or
  | 0x1#4 => some .and
  | 0x2#4 => some .sbc
  | 0x3#4 => some .adc
  | 0x4#4 => some .add
  | 0x5#4 => some .sub
  | 0x6#4 => some .xor
  | 0x8#4 => some .tcm
  | 0x9#4 => some .cp
  | 0xA#4 => some .tm
  | _ => none

/-- The byte instruction of an operation (30_encoding.md R100). -/
def Instr.ofAluByte (op : AluOp) (f : AluByteForm) : Instr :=
  match op with
  | .or => .or f
  | .and => .and f
  | .sbc => .sbc f
  | .adc => .adc f
  | .add => .add f
  | .sub => .sub f
  | .xor => .xor f
  | .tcm => .tcm f
  | .cp => .cp f
  | .tm => .tm f

/-- The word instruction of an operation (30_encoding.md R100). -/
def Instr.ofAluWord (op : AluOp) (f : AluWordForm) : Instr :=
  match op with
  | .or => .orw f
  | .and => .andw f
  | .sbc => .sbcw f
  | .adc => .adcw f
  | .add => .addw f
  | .sub => .subw f
  | .xor => .xorw f
  | .tcm => .tcmw f
  | .cp => .cpw f
  | .tm => .tmw f

/-- An ALD format with its K nibble in a later byte (30_encoding.md R120). -/
def decodeAld (k : BitVec 4) (f : KByteForm) (rest : List Byte) : Decoded :=
  if k = 0xF#4 then .ok (.ld (.k f), rest)
  else match AluOp.ofK k with
    | some op => .ok (.ofAluByte op (.k f), rest)
    | none => .error .reservedK

/-- An ALDW format with its K nibble in a later byte (30_encoding.md R120). -/
def decodeAldw (k : BitVec 4) (f : KWordForm) (rest : List Byte) : Decoded :=
  if k = 0xF#4 then .ok (.ldw (.k f), rest)
  else match AluOp.ofK k with
    | some op => .ok (.ofAluWord op (.k f), rest)
    | none => .error .reservedK

/-- Reads one byte. -/
def read1 (bs : List Byte) (k : Byte → List Byte → Decoded) : Decoded :=
  match bs with
  | a :: rest => k a rest
  | _ => .error .truncated

/-- Reads two bytes. -/
def read2 (bs : List Byte) (k : Byte → Byte → List Byte → Decoded) : Decoded :=
  match bs with
  | a :: b :: rest => k a b rest
  | _ => .error .truncated

/-- Reads three bytes. -/
def read3 (bs : List Byte) (k : Byte → Byte → Byte → List Byte → Decoded) : Decoded :=
  match bs with
  | a :: b :: c :: rest => k a b c rest
  | _ => .error .truncated

/-- Reads four bytes. -/
def read4 (bs : List Byte) (k : Byte → Byte → Byte → Byte → List Byte → Decoded) : Decoded :=
  match bs with
  | a :: b :: c :: d :: rest => k a b c d rest
  | _ => .error .truncated

/-- Reads one byte and answers an instruction made of it. -/
def take1 (bs : List Byte) (i : Byte → Instr) : Decoded :=
  read1 bs fun a rest => .ok (i a, rest)

/-- Reads two bytes and answers an instruction made of them. -/
def take2 (bs : List Byte) (i : Byte → Byte → Instr) : Decoded :=
  read2 bs fun a b rest => .ok (i a b, rest)

/-- Reads three bytes and answers an instruction made of them. -/
def take3 (bs : List Byte) (i : Byte → Byte → Byte → Instr) : Decoded :=
  read3 bs fun a b c rest => .ok (i a b c, rest)

/-- The bytes that follow must have this flag clear (30_encoding.md R122 item 8). -/
def unlessFlag (flag : Bool) (d : Decoded) : Decoded :=
  if flag then .error .wrongFlagBit else d

/-- First byte 60: the register-offset forms (30_encoding.md R104). -/
def decode60 (bs : List Byte) : Decoded :=
  read2 bs fun b2 b3 rest =>
    let rrn := nibPair (hiNib b2)
    let rrx := nibPair (loNib b2)
    match nibFlag (hiNib b2), nibFlag (loNib b2) with
    | true, false => decodeAld (hiNib b3) (.a13 (loNib b3) rrn rrx) rest
    | true, true => decodeAld (hiNib b3) (.a14 rrn rrx (loNib b3)) rest
    | false, false => unlessFlag (nibFlag (loNib b3)) (decodeAldw (hiNib b3) (.w14 (loNib b3) rrn rrx) rest)
    | false, true => unlessFlag (nibFlag (loNib b3)) (decodeAldw (hiNib b3) (.w15 rrn rrx (loNib b3)) rest)

/-- First bytes x0 (30_encoding.md R104). -/
def decodeX0 (h : BitVec 4) (bs : List Byte) : Decoded :=
  match h with
  | 0x0#4 => .ok (.ei, bs)
  | 0x1#4 => .ok (.di, bs)
  | 0x2#4 => take1 bs fun r => .popu (.direct r)
  | 0x3#4 => take1 bs fun r => .pushu (.reg (.direct r))
  | 0x4#4 => take1 bs fun r => .dec (.direct r)
  | 0x5#4 => take1 bs fun r => .inc (.direct r)
  | 0x6#4 => decode60 bs
  | 0x7#4 => take1 bs fun r => .da (.direct r)
  | 0x8#4 => take1 bs fun r => .cpl (.direct r)
  | 0x9#4 => take1 bs fun r => .clr (.direct r)
  | 0xA#4 => take1 bs fun r => .rol (.direct r)
  | 0xB#4 => take1 bs fun r => .rlc (.direct r)
  | 0xC#4 => take1 bs fun r => .ror (.direct r)
  | 0xD#4 => take1 bs fun r => .rrc (.direct r)
  | 0xE#4 => take1 bs fun r => .sra (.direct r)
  | _ => take1 bs fun r => .swap (.direct r)

/-- First bytes x1 (30_encoding.md R105). -/
def decodeX1 (h : BitVec 4) (bs : List Byte) : Decoded :=
  match h with
  | 0x0#4 => .ok (.scf, bs)
  | 0x1#4 => .ok (.rcf, bs)
  | 0x2#4 => take1 bs fun r => .popu (.indirect r)
  | 0x3#4 => take1 bs fun r => .pushu (.reg (.indirect r))
  | 0x4#4 => take1 bs fun r => .dec (.indirect r)
  | 0x5#4 => take1 bs fun r => .inc (.indirect r)
  | 0x6#4 => .ok (.ccf, bs)
  | 0x7#4 => take1 bs fun r => .da (.indirect r)
  | 0x8#4 => take1 bs fun r => .cpl (.indirect r)
  | 0x9#4 => take1 bs fun r => .clr (.indirect r)
  | 0xA#4 => take1 bs fun r => .rol (.indirect r)
  | 0xB#4 => take1 bs fun r => .rlc (.indirect r)
  | 0xC#4 => take1 bs fun r => .ror (.indirect r)
  | 0xD#4 => take1 bs fun r => .rrc (.indirect r)
  | 0xE#4 => take1 bs fun r => .sra (.indirect r)
  | _ => take1 bs fun r => .swap (.indirect r)

/-- First bytes x2 (30_encoding.md R106). -/
def decodeX2 (h : BitVec 4) (bs : List Byte) : Decoded :=
  match AluOp.ofK h with
  | some op => take1 bs fun b2 => .ofAluByte op (.a1 (hiNib b2) (loNib b2))
  | none =>
    match h with
    | 0x7#4 => read2 bs fun b2 b3 rest =>
        if nibFlag (loNib b2) then decodeAld (hiNib b2) (.a7 b3 (nibPair (loNib b2))) rest
        else decodeAld (hiNib b2) (.a8 (loNib b2) b3) rest
    | 0xB#4 => take2 bs fun b2 n => .ld (.b2 n (loNib b2) (hiNib b2))
    | 0xC#4 => read2 bs fun b2 b3 rest =>
        if nibFlag (loNib b2) then decodeAld (hiNib b2) (.a11 b3 (nibPair (loNib b2))) rest
        else decodeAld (hiNib b2) (.a12 (loNib b2) b3) rest
    | 0xD#4 => take2 bs fun nh nl => .call (.direct (word nh nl))
    | 0xE#4 => read3 bs fun b2 nh nl rest =>
        if nibFlag (loNib b2) then decodeAldw (hiNib b2) (.w21 (word nh nl) (nibPair (loNib b2))) rest
        else decodeAldw (hiNib b2) (.w20 (loNib b2) (word nh nl)) rest
    | _ => read1 bs fun b2 rest =>
        if bitFlag b2 then
          take1 rest fun b3 => .bld (if bitFlag b3 then .complemented else .plain)
            (bitNum b3) (loNib b3) (bitNum b2) (loNib b2)
        else .ok (.btset (.reg (bitNum b2) (loNib b2)), rest)

/-- First byte 73: the memory-to-memory byte form, CALLS and JPS indirect (30_encoding.md R107). -/
def decode73 (bs : List Byte) : Decoded :=
  read2 bs fun b2 b3 rest =>
    if nibFlag (loNib b2) then
      match hiNib b2 with
      | 0x4#4 => .ok (.calls (.indirect b3 (nibPair (loNib b2))), rest)
      | 0xC#4 => .ok (.jps (.indirect b3 (nibPair (loNib b2))), rest)
      | _ => .error .reservedK
    else unlessFlag (byteFlag b3) (decodeAld (hiNib b2) (.a21 b3 (loNib b2)) rest)

/-- First bytes x3 (30_encoding.md R107). -/
def decodeX3 (h : BitVec 4) (bs : List Byte) : Decoded :=
  match AluOp.ofK h with
  | some op => take1 bs fun b2 => .ofAluByte op (.a2 (hiNib b2) (loNib b2))
  | none =>
    match h with
    | 0x7#4 => decode73 bs
    | 0xB#4 => take2 bs fun b2 n => .ld (.b3 (hiNib b2) n (loNib b2))
    | 0xC#4 => read2 bs fun b2 b3 rest => unlessFlag (byteFlag b3) <|
        if nibFlag (loNib b2) then decodeAldw (hiNib b2) (.w12 b3 (nibPair (loNib b2))) rest
        else decodeAldw (hiNib b2) (.w13 (loNib b2) b3) rest
    | 0xD#4 => .ok (.iret, bs)
    | 0xE#4 => take1 bs fun b2 =>
        match nibFlag (hiNib b2), nibFlag (loNib b2) with
        | false, false => .ldw (.e3 (hiNib b2) (loNib b2))
        | true, false => .ldw (.e3Store (nibPair (hiNib b2)) (loNib b2))
        | false, true => .ldw (.e3Load (hiNib b2) (nibPair (loNib b2)))
        | true, true => .ldw (.e3Move (nibPair (hiNib b2)) (nibPair (loNib b2)))
    | _ => read2 bs fun b2 n rest =>
        unlessFlag (nibFlag (loNib b2)) (decodeAld (hiNib b2) (.a22 (loNib b2) n) rest)

/-- First bytes x4 (30_encoding.md R108). -/
def decodeX4 (h : BitVec 4) (bs : List Byte) : Decoded :=
  match AluOp.ofK h with
  | some op => take2 bs fun rs rd => .ofAluByte op (.a3 rd rs)
  | none =>
    match h with
    | 0x7#4 => take1 bs fun b2 => if byteFlag b2 then .call (.indirect (bytePair b2)) else .pushw (.pair b2)
    | 0xB#4 => read2 bs fun b2 b3 rest =>
        if nibFlag (loNib b2) then decodeAld (hiNib b2) (.a9 b3 (nibPair (loNib b2))) rest
        else decodeAld (hiNib b2) (.a10 (loNib b2) b3) rest
    | 0xC#4 => read3 bs fun b2 nh nl rest => decodeAld (hiNib b2) (.a19 (loNib b2) (word nh nl)) rest
    | 0xD#4 => read1 bs fun b2 rest =>
        if byteFlag b2 then take1 rest fun n => .link (bytePair b2) n else .ok (.jp b2, rest)
    | 0xE#4 => take1 bs fun b2 => .ld (.e4 (hiNib b2) (loNib b2))
    | _ => take2 bs fun rs rd => .ld (.f4 rd rs)

/-- First bytes x5 (30_encoding.md R109). -/
def decodeX5 (h : BitVec 4) (bs : List Byte) : Decoded :=
  match AluOp.ofK h with
  | some op => take2 bs fun rd n => .ofAluByte op (.a4 rd n)
  | none =>
    match h with
    | 0x7#4 => take1 bs fun b2 => if byteFlag b2 then .unlink (bytePair b2) else .popw b2
    | 0xB#4 => take1 bs fun b2 =>
        if nibFlag (loNib b2) then .ld (.b5Store (nibPair (loNib b2)) (hiNib b2))
        else .ld (.b5Load (hiNib b2) (loNib b2))
    | 0xC#4 => read3 bs fun b2 nh nl rest => decodeAld (hiNib b2) (.a20 (word nh nl) (loNib b2)) rest
    | 0xD#4 => read2 bs fun b2 b3 rest => unlessFlag (byteFlag b3) <|
        if nibFlag (loNib b2) then decodeAldw (hiNib b2) (.w10 b3 (nibPair (loNib b2))) rest
        else decodeAldw (hiNib b2) (.w11 (loNib b2) b3) rest
    | 0xE#4 => take1 bs fun b2 => .ld (.e5 (hiNib b2) (loNib b2))
    | _ => take2 bs fun rd n => .ld (.f5 rd n)

/-- First byte 86: the word indexed forms (30_encoding.md R110). -/
def decode86 (bs : List Byte) : Decoded :=
  read1 bs fun b2 rest =>
    if nibFlag (loNib b2) then
      read2 rest fun n b rest =>
        if byteFlag b then decodeAldw (hiNib b2) (.w18 n (nibPair (loNib b2)) (bytePair b)) rest
        else decodeAldw (hiNib b2) (.w16 b n (nibPair (loNib b2))) rest
    else
      read3 rest fun nh nl b rest =>
        if byteFlag b then decodeAldw (hiNib b2) (.w19 (word nh nl) (loNib b2) (bytePair b)) rest
        else decodeAldw (hiNib b2) (.w17 b (word nh nl) (loNib b2)) rest

/-- First bytes x6 (30_encoding.md R110). -/
def decodeX6 (h : BitVec 4) (bs : List Byte) : Decoded :=
  match h with
  | 0x0#4 => read1 bs fun b2 rest =>
      if nibFlag (loNib b2) then
        read3 rest fun n nh nl rest => decodeAldw (hiNib b2) (.w24 n (nibPair (loNib b2)) (word nh nl)) rest
      else
        read4 rest fun oh ol nh nl rest =>
          decodeAldw (hiNib b2) (.w25 (word oh ol) (loNib b2) (word nh nl)) rest
  | 0x1#4 => take2 bs fun rs rd => .xch rd rs
  | 0x2#4 => read1 bs fun b2 rest =>
      if nibFlag (loNib b2) then
        read2 rest fun n rs rest => decodeAld (hiNib b2) (.a17 n (nibPair (loNib b2)) rs) rest
      else
        read3 rest fun nh nl rs rest => decodeAld (hiNib b2) (.a18 (word nh nl) (loNib b2) rs) rest
  | 0x3#4 => read1 bs fun b2 rest =>
      if byteFlag b2 then
        if loNib b2 = 0x1#4 then
          read4 rest fun nh nl ah al rest => decodeAldw (hiNib b2) (.w26 (word ah al) (word nh nl)) rest
        else .error .reservedSecondByte
      else .ok (.rrcw b2, rest)
  | 0x4#4 => .ok (.ret, bs)
  | 0x5#4 => read2 bs fun b2 b3 rest =>
      unlessFlag (byteFlag b2 || nibFlag (hiNib b3) || nibFlag (loNib b3))
        (.ok (.divws (hiNib b3) (loNib b3) b2, rest))
  | 0x6#4 => take1 bs fun r => .push (.reg (.direct r))
  | 0x7#4 => take1 bs fun r => .pop (.direct r)
  | 0x8#4 => decode86 bs
  | 0x9#4 => read2 bs fun b2 b3 rest =>
      unlessFlag (byteFlag b2) (decodeAldw (hiNib b3) (.w7 (loNib b3) b2) rest)
  | 0xA#4 => read2 bs fun b2 b3 rest =>
      unlessFlag (byteFlag b3) (decodeAldw (hiNib b2) (.w8 b3 (loNib b2)) rest)
  | 0xB#4 => read1 bs fun b2 rest =>
      if byteFlag b2 then take1 rest fun n => .linku (bytePair b2) n else .ok (.pushuw (.pair b2), rest)
  | 0xC#4 => read1 bs fun b2 rest =>
      if byteFlag b2 then .ok (.ext (bytePair b2), rest) else take1 rest fun n => .dwjnz b2 n
  | 0xD#4 => take1 bs fun b2 =>
      let rrd := nibPair (hiNib b2)
      let rrs := nibPair (loNib b2)
      match nibFlag (hiNib b2), nibFlag (loNib b2) with
      | false, false => .ldpp rrd rrs
      | true, false => .lddp rrd rrs
      | false, true => .ldpd rrd rrs
      | true, true => .lddd rrd rrs
  | 0xE#4 => read2 bs fun b2 b3 rest => decodeAld (hiNib b3) (.a5 (loNib b3) b2) rest
  | _ => read1 bs fun b2 rest =>
      if b2 = 0x01#8 then .ok (.rets, rest)
      else if byteFlag b2 || bitFlag b2 then .error .reservedSecondByte
      else .ok (.btset (.mem (bitNum b2) (loNib b2)), rest)

/-- First byte C7: SRP, SRP0, SRP1 and SPP (30_encoding.md R111). -/
def decodeC7 (bs : List Byte) : Decoded :=
  read1 bs fun b2 rest =>
    match b2.extractLsb' 0 3 with
    | 0b000#3 => .ok (.srp (b2.extractLsb' 3 5), rest)
    | 0b100#3 => .ok (.srp0 (b2.extractLsb' 3 5), rest)
    | 0b101#3 => .ok (.srp1 (b2.extractLsb' 3 5), rest)
    | 0b010#3 => .ok (.spp (b2.extractLsb' 2 6), rest)
    | 0b110#3 => .ok (.spp (b2.extractLsb' 2 6), rest)
    | _ => .error .reservedSecondByte

/-- First bytes x7 (30_encoding.md R111). -/
def decodeX7 (h : BitVec 4) (bs : List Byte) : Decoded :=
  match AluOp.ofK h with
  | some op => read1 bs fun b2 rest =>
      if byteFlag b2 then take2 rest fun nh nl => .ofAluWord op (.w6 (bytePair b2) (word nh nl))
      else read1 rest fun b3 rest => unlessFlag (byteFlag b3) (.ok (.ofAluWord op (.w5 b3 b2), rest))
  | none =>
    match h with
    | 0x7#4 => take1 bs fun r => .pop (.indirect r)
    | 0xB#4 => take1 bs fun b2 => if byteFlag b2 then .unlinku (bytePair b2) else .popuw b2
    | 0xC#4 => decodeC7 bs
    | 0xD#4 => take1 bs fun b2 =>
        if nibFlag (loNib b2) then .ld (.d7Load (hiNib b2) (nibPair (loNib b2)))
        else .ld (.d7Store (loNib b2) (hiNib b2))
    | 0xE#4 => read2 bs fun b2 rd rest => decodeAld (hiNib b2) (.a6 rd (loNib b2)) rest
    | _ => take1 bs fun r => .push (.reg (.indirect r))

/-- JRcc with the condition code of the first byte (30_encoding.md R115, 10_state.md R33). -/
def Instr.ofJr (cc : BitVec 4) (n : Byte) : Instr :=
  match cc with
  | 0x0#4 => .jrf n
  | 0x1#4 => .jrlt n
  | 0x2#4 => .jrle n
  | 0x3#4 => .jrule n
  | 0x4#4 => .jrov n
  | 0x5#4 => .jrmi n
  | 0x6#4 => .jreq n
  | 0x7#4 => .jrult n
  | 0x8#4 => .jrt n
  | 0x9#4 => .jrge n
  | 0xA#4 => .jrgt n
  | 0xB#4 => .jrugt n
  | 0xC#4 => .jrnov n
  | 0xD#4 => .jrpl n
  | 0xE#4 => .jrne n
  | _ => .jruge n

/-- JPcc with the condition code of the first byte (30_encoding.md R117, 10_state.md R33). -/
def Instr.ofJp (cc : BitVec 4) (nn : Word) : Instr :=
  match cc with
  | 0x0#4 => .jpf nn
  | 0x1#4 => .jplt nn
  | 0x2#4 => .jple nn
  | 0x3#4 => .jpule nn
  | 0x4#4 => .jpov nn
  | 0x5#4 => .jpmi nn
  | 0x6#4 => .jpeq nn
  | 0x7#4 => .jpult nn
  | 0x8#4 => .jpt nn
  | 0x9#4 => .jpge nn
  | 0xA#4 => .jpgt nn
  | 0xB#4 => .jpugt nn
  | 0xC#4 => .jpnov nn
  | 0xD#4 => .jppl nn
  | 0xE#4 => .jpne nn
  | _ => .jpuge nn

/-- First bytes xE (30_encoding.md R118). -/
def decodeXE (h : BitVec 4) (bs : List Byte) : Decoded :=
  match AluOp.ofK h with
  | some op => take1 bs fun b2 =>
      match nibFlag (hiNib b2), nibFlag (loNib b2) with
      | false, false => .ofAluWord op (.w1 (hiNib b2) (loNib b2))
      | true, false => .ofAluWord op (.w3 (nibPair (hiNib b2)) (loNib b2))
      | false, true => .ofAluWord op (.w2 (hiNib b2) (nibPair (loNib b2)))
      | true, true => .ofAluWord op (.w4 (nibPair (hiNib b2)) (nibPair (loNib b2)))
  | none =>
    match h with
    | 0x7#4 => read2 bs fun b2 b3 rest =>
        unlessFlag (nibFlag (loNib b2) || byteFlag b3) (decodeAldw (hiNib b2) (.w9 b3 (loNib b2)) rest)
    | 0xB#4 => read1 bs fun b2 rest =>
        if nibFlag (loNib b2) then
          read1 rest fun b3 rest =>
            unlessFlag (byteFlag b3) (decodeAldw (hiNib b2) (.w22 (nibPair (loNib b2)) b3) rest)
        else read2 rest fun nh nl rest => decodeAldw (hiNib b2) (.w23 (loNib b2) (word nh nl)) rest
    | 0xC#4 => .ok (.etrap, bs)
    | 0xD#4 => take2 bs fun b2 n =>
        if nibFlag (hiNib b2) then .ldw (.deStore n (loNib b2) (nibPair (hiNib b2)))
        else .ldw (.deLoad (hiNib b2) n (loNib b2))
    | 0xE#4 => .ok (.spm, bs)
    | _ => .ok (.sdm, bs)

/-- The two-bit instructions of first bytes 0F, 1F, 6F, and the one-bit instruction that shares the byte
(30_encoding.md R119). `plainFlag` is the source flag of the plain form. -/
def decodeBits (plainFlag : Bool) (two : BitSource → BitVec 3 → WReg → BitVec 3 → WReg → Instr)
    (one : BitVec 3 → WReg → Instr) (bs : List Byte) : Decoded :=
  read1 bs fun b2 rest =>
    if bitFlag b2 then
      take1 rest fun b3 => two (if bitFlag b3 = plainFlag then .plain else .complemented)
        (bitNum b2) (loNib b2) (bitNum b3) (loNib b3)
    else .ok (one (bitNum b2) (loNib b2), rest)

/-- First byte 3F: CALLS and JPS with an immediate segment (30_encoding.md R119). -/
def decode3F (bs : List Byte) : Decoded :=
  read3 bs fun b2 nh nl rest =>
    match b2.extractLsb' 6 2 with
    | 0b01#2 => .ok (.calls (.direct (b2.extractLsb' 0 6) (word nh nl)), rest)
    | 0b11#2 => .ok (.jps (.direct (b2.extractLsb' 0 6) (word nh nl)), rest)
    | _ => .error .reservedSecondByte

/-- The operand of PEA and PEAU; the long offset has its low byte first (30_encoding.md R92, R119). -/
def decodePea (bs : List Byte) (i : PeaForm → Instr) : Decoded :=
  read1 bs fun b3 rest =>
    if byteFlag b3 then take2 rest fun nl nh => i (.long (word nh nl) (bytePair b3))
    else take1 rest fun n => i (.short n b3)

/-- First byte 8F (30_encoding.md R119). -/
def decode8F (bs : List Byte) : Decoded :=
  read1 bs fun b2 rest =>
    if byteFlag b2 then
      match b2 with
      | 0xF1#8 => take1 rest fun n => .push (.imm n)
      | 0xF3#8 => take1 rest fun n => .pushu (.imm n)
      | 0xC1#8 => take2 rest fun nh nl => .pushw (.imm (word nh nl))
      | 0xC3#8 => take2 rest fun nh nl => .pushuw (.imm (word nh nl))
      | 0x01#8 => decodePea rest .pea
      | 0x03#8 => decodePea rest .peau
      | _ => .error .reservedSecondByte
    else .ok (.rlcw b2, rest)

/-- First bytes xF (30_encoding.md R119). -/
def decodeXF (h : BitVec 4) (bs : List Byte) : Decoded :=
  match h with
  | 0x0#4 => decodeBits false .bor .bset bs
  | 0x1#4 => decodeBits true .band .bres bs
  | 0x2#4 => read1 bs fun b2 rest =>
      if byteFlag b2 then
        if loNib b2 = 0x1#4 then
          read3 rest fun n nh nl rest => decodeAld (hiNib b2) (.a23 (word nh nl) n) rest
        else .error .reservedSecondByte
      else .ok (.sraw b2, rest)
  | 0x3#4 => decode3F bs
  | 0x4#4 => read1 bs fun b2 rest =>
      unlessFlag (nibFlag (hiNib b2)) (.ok (.mul (hiNib b2) (loNib b2), rest))
  | 0x5#4 => read1 bs fun b2 rest =>
      unlessFlag (nibFlag (hiNib b2)) (.ok (.div (hiNib b2) (loNib b2), rest))
  | 0x6#4 => decodeBits false .bxor .bcpl bs
  | 0x7#4 => read1 bs fun b2 rest =>
      if nibFlag (loNib b2) then
        read2 rest fun n rd rest => decodeAld (hiNib b2) (.a15 rd n (nibPair (loNib b2))) rest
      else
        read3 rest fun nh nl rd rest => decodeAld (hiNib b2) (.a16 rd (word nh nl) (loNib b2)) rest
  | 0x8#4 => decode8F bs
  | 0x9#4 => take2 bs fun b2 n =>
      if nibFlag (hiNib b2) then .cpjti (loNib b2) (nibPair (hiNib b2)) n
      else .cpjfi (loNib b2) (hiNib b2) n
  | 0xA#4 => take2 bs fun b2 n =>
      if bitFlag b2 then .btjf (bitNum b2) (loNib b2) n else .btjt (bitNum b2) (loNib b2) n
  | 0xB#4 => read1 bs fun b2 rest =>
      if byteFlag b2 then
        if b2 = 0x01#8 then .ok (.halt, rest) else .error .reservedSecondByte
      else take2 rest fun nh nl => .ldw (.bf b2 (word nh nl))
  | 0xC#4 => read1 bs fun b2 rest => unlessFlag (byteFlag b2) (.ok (.decw b2, rest))
  | 0xD#4 => read1 bs fun b2 rest => unlessFlag (byteFlag b2) (.ok (.incw b2, rest))
  | 0xE#4 => read1 bs fun b2 rest =>
      if byteFlag b2 then
        if b2 = 0x01#8 then .ok (.wfi, rest)
        else if b2 = 0x31#8 then .ok (.eret, rest)
        else .error .reservedSecondByte
      else read1 rest fun b3 rest => unlessFlag (byteFlag b3) (.ok (.ldw (.ef b3 b2), rest))
  | _ => .ok (.nop, bs)

/-- Decoding (30_encoding.md R103): the first byte's low nibble selects the rule, its high nibble the row. -/
def decode (bytes : List Byte) : Decoded :=
  read1 bytes fun b1 bs =>
    match loNib b1 with
    | 0x0#4 => decodeX0 (hiNib b1) bs
    | 0x1#4 => decodeX1 (hiNib b1) bs
    | 0x2#4 => decodeX2 (hiNib b1) bs
    | 0x3#4 => decodeX3 (hiNib b1) bs
    | 0x4#4 => decodeX4 (hiNib b1) bs
    | 0x5#4 => decodeX5 (hiNib b1) bs
    | 0x6#4 => decodeX6 (hiNib b1) bs
    | 0x7#4 => decodeX7 (hiNib b1) bs
    | 0x8#4 => take1 bs fun rs => .ld (.x8 (hiNib b1) rs)
    | 0x9#4 => take1 bs fun rd => .ld (.x9 rd (hiNib b1))
    | 0xA#4 => take1 bs fun n => .djnz (hiNib b1) n
    | 0xB#4 => take1 bs fun n => .ofJr (hiNib b1) n
    | 0xC#4 => take1 bs fun n => .ld (.xC (hiNib b1) n)
    | 0xD#4 => take2 bs fun nh nl => .ofJp (hiNib b1) (word nh nl)
    | 0xE#4 => decodeXE (hiNib b1) bs
    | _ => decodeXF (hiNib b1) bs

/-- A pair nibble with its flag bit set, `rr,1` (30_encoding.md R97). -/
def nibSet (p : WPair) : BitVec 4 := p ||| 1#4

/-- A pair byte with its flag bit set, `RR,1` (30_encoding.md R96). -/
def byteSet (p : RegPair) : Byte := p ||| 1#8

/-- The byte of a bit operand `[b,f | r]` (30_encoding.md R101). -/
def bitByte (b : BitVec 3) (f : Bool) (r : WReg) : Byte := b ++ BitVec.ofBool f ++ r

/-- The K nibble of an operation (30_encoding.md R100). -/
def AluOp.k : AluOp → BitVec 4
  | .or => 0x0
  | .and => 0x1
  | .sbc => 0x2
  | .adc => 0x3
  | .add => 0x4
  | .sub => 0x5
  | .xor => 0x6
  | .tcm => 0x8
  | .cp => 0x9
  | .tm => 0xA

/-- The bytes of a byte form A5 to A23 (41_alu2.md R201). -/
def encodeKByte (k : BitVec 4) : KByteForm → List Byte
  | .a5 rd rs => [0xE6, rs, nib k rd]
  | .a6 rd rs => [0xE7, nib k rs, rd]
  | .a7 rd rrs => [0x72, nib k (nibSet rrs), rd]
  | .a8 rrd rs => [0x72, nib k rrd, rs]
  | .a9 rd rrs => [0xB4, nib k (nibSet rrs), rd]
  | .a10 rrd rs => [0xB4, nib k rrd, rs]
  | .a11 rd rrs => [0xC2, nib k (nibSet rrs), rd]
  | .a12 rrd rs => [0xC2, nib k rrd, rs]
  | .a13 rd rrn rrx => [0x60, nib (nibSet rrn) rrx, nib k rd]
  | .a14 rrn rrx rs => [0x60, nib (nibSet rrn) (nibSet rrx), nib k rs]
  | .a15 rd n rrx => [0x7F, nib k (nibSet rrx), n, rd]
  | .a16 rd nn rrx => [0x7F, nib k rrx, nn.hi, nn.lo, rd]
  | .a17 n rrx rs => [0x26, nib k (nibSet rrx), n, rs]
  | .a18 nn rrx rs => [0x26, nib k rrx, nn.hi, nn.lo, rs]
  | .a19 rd nn => [0xC4, nib k rd, nn.hi, nn.lo]
  | .a20 nn rs => [0xC5, nib k rs, nn.hi, nn.lo]
  | .a21 rrd rrs => [0x73, nib k rrs, rrd]
  | .a22 rrd n => [0xF3, nib k rrd, n]
  | .a23 nn n => [0x2F, nib k 1, n, nn.hi, nn.lo]

/-- The bytes of a byte instruction (41_alu2.md R201). -/
def encodeAluByte (op : AluOp) : AluByteForm → List Byte
  | .a1 rd rs => [nib op.k 0x2, nib rd rs]
  | .a2 rd rs => [nib op.k 0x3, nib rd rs]
  | .a3 rd rs => [nib op.k 0x4, rs, rd]
  | .a4 rd n => [nib op.k 0x5, rd, n]
  | .k f => encodeKByte op.k f

/-- The bytes of a word form W7 to W26 (41_alu2.md R202). -/
def encodeKWord (k : BitVec 4) : KWordForm → List Byte
  | .w7 rd rrs => [0x96, rrs, nib k rd]
  | .w8 rrd rs => [0xA6, nib k rs, rrd]
  | .w9 rrd rrs => [0x7E, nib k rrs, rrd]
  | .w10 rrd rrs => [0xD5, nib k (nibSet rrs), rrd]
  | .w11 rrd rrs => [0xD5, nib k rrd, rrs]
  | .w12 rrd rrs => [0xC3, nib k (nibSet rrs), rrd]
  | .w13 rrd rrs => [0xC3, nib k rrd, rrs]
  | .w14 rrd rrn rrx => [0x60, nib rrn rrx, nib k rrd]
  | .w15 rrn rrx rrs => [0x60, nib rrn (nibSet rrx), nib k rrs]
  | .w16 rrd n rrx => [0x86, nib k (nibSet rrx), n, rrd]
  | .w17 rrd nn rrx => [0x86, nib k rrx, nn.hi, nn.lo, rrd]
  | .w18 n rrx rrs => [0x86, nib k (nibSet rrx), n, byteSet rrs]
  | .w19 nn rrx rrs => [0x86, nib k rrx, nn.hi, nn.lo, byteSet rrs]
  | .w20 rrd nn => [0xE2, nib k rrd, nn.hi, nn.lo]
  | .w21 nn rrs => [0xE2, nib k (nibSet rrs), nn.hi, nn.lo]
  | .w22 rrd rrs => [0xBE, nib k (nibSet rrd), rrs]
  | .w23 rrd nn => [0xBE, nib k rrd, nn.hi, nn.lo]
  | .w24 n rrx nn => [0x06, nib k (nibSet rrx), n, nn.hi, nn.lo]
  | .w25 ofs rrx nn => [0x06, nib k rrx, ofs.hi, ofs.lo, nn.hi, nn.lo]
  | .w26 addr nn => [0x36, nib k 1, nn.hi, nn.lo, addr.hi, addr.lo]

/-- The bytes of a word instruction (41_alu2.md R202). -/
def encodeAluWord (op : AluOp) : AluWordForm → List Byte
  | .w1 rrd rrs => [nib op.k 0xE, nib rrd rrs]
  | .w2 rrd rrs => [nib op.k 0xE, nib rrd (nibSet rrs)]
  | .w3 rrd rrs => [nib op.k 0xE, nib (nibSet rrd) rrs]
  | .w4 rrd rrs => [nib op.k 0xE, nib (nibSet rrd) (nibSet rrs)]
  | .w5 rrd rrs => [nib op.k 0x7, rrs, rrd]
  | .w6 rrd nn => [nib op.k 0x7, byteSet rrd, nn.hi, nn.lo]
  | .k f => encodeKWord op.k f

/-- The bytes of an LD form (40_load.md R141 to R170). -/
def encodeLd : LdForm → List Byte
  | .x8 rd rs => [nib rd 0x8, rs]
  | .x9 rd rs => [nib rs 0x9, rd]
  | .xC rd n => [nib rd 0xC, n]
  | .e4 rd rs => [0xE4, nib rd rs]
  | .e5 rd rs => [0xE5, nib rd rs]
  | .b2 n rx rs => [0xB2, nib rs rx, n]
  | .b3 rd n rx => [0xB3, nib rd rx, n]
  | .f4 rd rs => [0xF4, rs, rd]
  | .f5 rd n => [0xF5, rd, n]
  | .b5Load rd rrs => [0xB5, nib rd rrs]
  | .b5Store rrd rs => [0xB5, nib rs (nibSet rrd)]
  | .d7Load rd rrs => [0xD7, nib rd (nibSet rrs)]
  | .d7Store rrd rs => [0xD7, nib rs rrd]
  | .k f => encodeKByte 0xF f

/-- The bytes of an LDW form (40_load.md R176 to R199). -/
def encodeLdw : LdwForm → List Byte
  | .e3 rrd rrs => [0xE3, nib rrd rrs]
  | .e3Load rrd rrs => [0xE3, nib rrd (nibSet rrs)]
  | .e3Store rrd rrs => [0xE3, nib (nibSet rrd) rrs]
  | .e3Move rrd rrs => [0xE3, nib (nibSet rrd) (nibSet rrs)]
  | .ef rrd rrs => [0xEF, rrs, rrd]
  | .bf rrd nn => [0xBF, rrd, nn.hi, nn.lo]
  | .deStore n rx rrs => [0xDE, nib (nibSet rrs) rx, n]
  | .deLoad rrd n rx => [0xDE, nib rrd rx, n]
  | .k f => encodeKWord 0xF f

/-- The bytes of a one-operand byte instruction, from its high nibble (42_alu1.md R260). -/
def encodeTarget (h : BitVec 4) : ByteTarget → List Byte
  | .direct r => [nib h 0x0, r]
  | .indirect r => [nib h 0x1, r]

/-- The bytes of a two-bit instruction (45_boolean.md R351 to R353). -/
def encodeBits (first : Byte) (plainFlag : Bool) (src : BitSource) (bd : BitVec 3) (rd : WReg)
    (bs : BitVec 3) (rs : WReg) : List Byte :=
  match src with
  | .plain => [first, bitByte bd true rd, bitByte bs plainFlag rs]
  | .complemented => [first, bitByte bd true rd, bitByte bs (!plainFlag) rs]

/-- The bytes of PEA and PEAU after the first (43_stack.md R313): the long offset has its low byte first. -/
def encodePea (ext : Byte) : PeaForm → List Byte
  | .short n rrx => [0x8F, ext, rrx, n]
  | .long nn rrx => [0x8F, ext, byteSet rrx, nn.lo, nn.hi]

/-- The bytes of PUSH (43_stack.md R305). -/
def encodePush : PushForm → List Byte
  | .reg (.direct r) => [0x66, r]
  | .reg (.indirect r) => [0xF7, r]
  | .imm n => [0x8F, 0xF1, n]

/-- The bytes of PUSHU (43_stack.md R307). -/
def encodePushu : PushForm → List Byte
  | .reg t => encodeTarget 0x3 t
  | .imm n => [0x8F, 0xF3, n]

/-- The bytes of PUSHW (43_stack.md R306). -/
def encodePushw : PushWordForm → List Byte
  | .pair rrs => [0x74, rrs]
  | .imm nn => [0x8F, 0xC1, nn.hi, nn.lo]

/-- The bytes of PUSHUW (43_stack.md R308). -/
def encodePushuw : PushWordForm → List Byte
  | .pair rrs => [0xB6, rrs]
  | .imm nn => [0x8F, 0xC3, nn.hi, nn.lo]

/-- The bytes of POP (43_stack.md R309). -/
def encodePop : ByteTarget → List Byte
  | .direct r => [0x76, r]
  | .indirect r => [0x77, r]

/-- The bytes of BLD (45_boolean.md R355): the source bit comes first. -/
def encodeBld (src : BitSource) (bd : BitVec 3) (rd : WReg) (bs : BitVec 3) (rs : WReg) : List Byte :=
  match src with
  | .plain => [0xF2, bitByte bs true rs, bitByte bd false rd]
  | .complemented => [0xF2, bitByte bs true rs, bitByte bd true rd]

/-- The bytes of BTSET (45_boolean.md R354). -/
def encodeBtset : BtsetForm → List Byte
  | .reg b rd => [0xF2, bitByte b false rd]
  | .mem b rr => [0xF6, bitByte b false rr]

/-- The bytes of CALL (46_control.md R376). -/
def encodeCall : CallForm → List Byte
  | .direct nn => [0xD2, nn.hi, nn.lo]
  | .indirect rr => [0x74, byteSet rr]

/-- The bytes of JPS and CALLS, from the bits that tell them apart (46_control.md R375, R377). -/
def encodeFar (top : BitVec 2) (k : BitVec 4) : FarForm → List Byte
  | .direct seg nn => [0x3F, top ++ seg, nn.hi, nn.lo]
  | .indirect r rr => [0x73, nib k (nibSet rr), r]

/-- The bytes of an instruction (30_encoding.md R104 to R119). -/
def encode : Instr → List Byte
  | .or f => encodeAluByte .or f
  | .and f => encodeAluByte .and f
  | .sbc f => encodeAluByte .sbc f
  | .adc f => encodeAluByte .adc f
  | .add f => encodeAluByte .add f
  | .sub f => encodeAluByte .sub f
  | .xor f => encodeAluByte .xor f
  | .tcm f => encodeAluByte .tcm f
  | .cp f => encodeAluByte .cp f
  | .tm f => encodeAluByte .tm f
  | .orw f => encodeAluWord .or f
  | .andw f => encodeAluWord .and f
  | .sbcw f => encodeAluWord .sbc f
  | .adcw f => encodeAluWord .adc f
  | .addw f => encodeAluWord .add f
  | .subw f => encodeAluWord .sub f
  | .xorw f => encodeAluWord .xor f
  | .tcmw f => encodeAluWord .tcm f
  | .cpw f => encodeAluWord .cp f
  | .tmw f => encodeAluWord .tm f
  | .ld f => encodeLd f
  | .ldw f => encodeLdw f
  | .ldpp rrd rrs => [0xD6, nib rrd rrs]
  | .lddp rrd rrs => [0xD6, nib (nibSet rrd) rrs]
  | .ldpd rrd rrs => [0xD6, nib rrd (nibSet rrs)]
  | .lddd rrd rrs => [0xD6, nib (nibSet rrd) (nibSet rrs)]
  | .inc t => encodeTarget 0x5 t
  | .dec t => encodeTarget 0x4 t
  | .clr t => encodeTarget 0x9 t
  | .cpl t => encodeTarget 0x8 t
  | .swap t => encodeTarget 0xF t
  | .da t => encodeTarget 0x7 t
  | .rlc t => encodeTarget 0xB t
  | .rrc t => encodeTarget 0xD t
  | .rol t => encodeTarget 0xA t
  | .ror t => encodeTarget 0xC t
  | .sra t => encodeTarget 0xE t
  | .incw rr => [0xDF, rr]
  | .decw rr => [0xCF, rr]
  | .rlcw rr => [0x8F, rr]
  | .rrcw rr => [0x36, rr]
  | .sraw rr => [0x2F, rr]
  | .push f => encodePush f
  | .pushu f => encodePushu f
  | .pushw f => encodePushw f
  | .pushuw f => encodePushuw f
  | .pop t => encodePop t
  | .popu t => encodeTarget 0x2 t
  | .popw rr => [0x75, rr]
  | .popuw rr => [0xB7, rr]
  | .pea f => encodePea 0x01 f
  | .peau f => encodePea 0x03 f
  | .link rr n => [0xD4, byteSet rr, n]
  | .linku rr n => [0xB6, byteSet rr, n]
  | .unlink rr => [0x75, byteSet rr]
  | .unlinku rr => [0xB7, byteSet rr]
  | .mul rrd rs => [0x4F, nib rrd rs]
  | .div rrd rs => [0x5F, nib rrd rs]
  | .divws rrh rrl rrs => [0x56, rrs, nib rrh rrl]
  | .band src bd rd bs rs => encodeBits 0x1F true src bd rd bs rs
  | .bor src bd rd bs rs => encodeBits 0x0F false src bd rd bs rs
  | .bxor src bd rd bs rs => encodeBits 0x6F false src bd rd bs rs
  | .bld src bd rd bs rs => encodeBld src bd rd bs rs
  | .btset f => encodeBtset f
  | .bset b rd => [0x0F, bitByte b false rd]
  | .bres b rd => [0x1F, bitByte b false rd]
  | .bcpl b rd => [0x6F, bitByte b false rd]
  | .btjf b rd n => [0xAF, bitByte b true rd, n]
  | .btjt b rd n => [0xAF, bitByte b false rd, n]
  | .jpf nn => [0x0D, nn.hi, nn.lo]
  | .jplt nn => [0x1D, nn.hi, nn.lo]
  | .jple nn => [0x2D, nn.hi, nn.lo]
  | .jpule nn => [0x3D, nn.hi, nn.lo]
  | .jpov nn => [0x4D, nn.hi, nn.lo]
  | .jpmi nn => [0x5D, nn.hi, nn.lo]
  | .jpeq nn => [0x6D, nn.hi, nn.lo]
  | .jpult nn => [0x7D, nn.hi, nn.lo]
  | .jpt nn => [0x8D, nn.hi, nn.lo]
  | .jpge nn => [0x9D, nn.hi, nn.lo]
  | .jpgt nn => [0xAD, nn.hi, nn.lo]
  | .jpugt nn => [0xBD, nn.hi, nn.lo]
  | .jpnov nn => [0xCD, nn.hi, nn.lo]
  | .jppl nn => [0xDD, nn.hi, nn.lo]
  | .jpne nn => [0xED, nn.hi, nn.lo]
  | .jpuge nn => [0xFD, nn.hi, nn.lo]
  | .jrf n => [0x0B, n]
  | .jrlt n => [0x1B, n]
  | .jrle n => [0x2B, n]
  | .jrule n => [0x3B, n]
  | .jrov n => [0x4B, n]
  | .jrmi n => [0x5B, n]
  | .jreq n => [0x6B, n]
  | .jrult n => [0x7B, n]
  | .jrt n => [0x8B, n]
  | .jrge n => [0x9B, n]
  | .jrgt n => [0xAB, n]
  | .jrugt n => [0xBB, n]
  | .jrnov n => [0xCB, n]
  | .jrpl n => [0xDB, n]
  | .jrne n => [0xEB, n]
  | .jruge n => [0xFB, n]
  | .jp rr => [0xD4, rr]
  | .jps f => encodeFar 0b11 0xC f
  | .call f => encodeCall f
  | .calls f => encodeFar 0b01 0x4 f
  | .ret => [0x46]
  | .rets => [0xF6, 0x01]
  | .iret => [0xD3]
  | .djnz r n => [nib r 0xA, n]
  | .dwjnz rr n => [0xC6, rr, n]
  | .cpjfi rd rrs n => [0x9F, nib rrs rd, n]
  | .cpjti rd rrs n => [0x9F, nib (nibSet rrs) rd, n]
  | .srp g => [0xC7, g ++ 0b000#3]
  | .srp0 g => [0xC7, g ++ 0b100#3]
  | .srp1 g => [0xC7, g ++ 0b101#3]
  | .spp pg => [0xC7, pg ++ 0b10#2]
  | .xch rd rs => [0x16, rs, rd]
  | .ext rr => [0xC6, byteSet rr]
  | .ei => [0x00]
  | .di => [0x10]
  | .scf => [0x01]
  | .rcf => [0x11]
  | .ccf => [0x61]
  | .spm => [0xEE]
  | .sdm => [0xFE]
  | .nop => [0xFF]
  | .wfi => [0xEF, 0x01]
  | .halt => [0xBF, 0x01]
  | .etrap => [0xCE]
  | .eret => [0xEF, 0x31]

/-- The length of an instruction in bytes (30_encoding.md R121). -/
def Instr.length (i : Instr) : Nat := (encode i).length

/-- The bytes of an instruction word as spec/opcode_table.json numbers its bits: the first byte is the most
significant of the `n` bytes (30_encoding.md R125; log entry 26). -/
def tableBytes (n w : Nat) : List Byte :=
  match n with
  | 0 => []
  | n + 1 => BitVec.ofNat 8 (w / 2 ^ (8 * n)) :: tableBytes n w

/-- The window of `Config.maxInstrBytes` bytes that starts with an instruction word of `nbits` bits and goes on
with zeros. -/
def tableWindow (nbits w : Nat) : List Byte :=
  ((tableBytes (nbits / 8) w) ++ List.replicate Config.maxInstrBytes 0).take Config.maxInstrBytes

/-- The instruction the decoder reads from a word of the opcode table (log entry 26). -/
def decodeTableWord (nbits w : Nat) : Option Instr :=
  match decode (tableWindow nbits w) with
  | .ok (i, _) => some i
  | .error _ => none

end Sys2Proof
end

