-- ==== Sys2Proof/Machine/State.lean ====
section
/-! DEFINITION. The state of the ST9+ core (spec/10_state.md R20), the reasons a step can stop, and the state
right after reset (spec/70_reset_and_hazards.md R491). State is plain data.

Three components stand for what the spec leaves to the environment, as plain data: `dataMap` for the
translation parameter, `memRegions` for `MEM_PRESENT`, `inputs` for the environment's answers (log entries 13,
8 and 15). `fresh` is the model's own counter (log entry 29). -/

namespace Sys2Proof.Machine

/-- What HALT and WFI do to the core (10_state.md R42). -/
inductive RunState
  /-- Instructions are fetched and executed. -/
  | running
  /-- Entered by WFI; left when an interrupt is accepted. -/
  | waiting
  /-- Entered by HALT; left only by reset. -/
  | halted
deriving DecidableEq, Repr

/-- What stands behind an address of a space: the values of `MEM_PRESENT` (92_eei_decisions.md D6). -/
inductive MemKind
  /-- Read and write. -/
  | ram
  /-- A write changes nothing. -/
  | rom
  /-- A read returns an unspecified byte, a write changes nothing. -/
  | absent
deriving DecidableEq, Repr

/-- A part of the parameter `MEM_PRESENT`: the physical addresses `base` to `base + size - 1` of one space. -/
structure MemRegion where
  space : Space
  base : Nat
  size : Nat
  kind : MemKind
deriving DecidableEq, Repr

/-- An interrupt request, as `IrqPoll` answers it (60_exceptions.md R455). -/
structure IrqRequest where
  nmi : Bool
  vector : Word
  seg : BitVec 6
deriving DecidableEq, Repr

/-- What 70_reset_and_hazards.md R490 and R491 leave unspecified about a reset (`ResetParams`), as the environment
chose it: the values of the registers, what an abandoned instruction had stored, and what a loss of power did. -/
structure ResetParams where
  pc : Word
  cicr : Byte
  flagr : Byte
  rp0 : BitVec 5
  rp1 : BitVec 5
  twin : Bool
  ppr : Byte
  ssp : Word
  usp : Word
  /-- The register-file cells: any list, its first entry for a key counts. -/
  phys : List Host.Cell
  /-- The paged registers: any list, its first entry for a key counts. -/
  pages : List Host.Cell
  divwsHidden : Nat
  /-- For each byte store of what the reset cut short, in their order, whether it had happened (R490,
  93_implementation_defined.md U14); a store beyond the list had not. -/
  landed : List Bool
  /-- The bytes of RAM that a loss of power left, as far as they changed; the first entry for an address counts.
  None for a reset without loss of power (R491). -/
  ramLost : List (PhysAddr × Byte)
deriving DecidableEq, Repr

/-- What the environment does at one instruction boundary: a new value of ENCSR (10_state.md R40), a reset
(70_reset_and_hazards.md R490), the answer of `IrqPoll` (60_exceptions.md R455). -/
structure Boundary where
  encsr : Option Bool
  reset : Option ResetParams
  irq : Option IrqRequest
deriving DecidableEq, Repr

/-- The state of the machine (10_state.md R20). -/
structure State where
  /-- The cells behind R0 to R239 that are no system register (R21, R25), by physical address; an unlisted
  cell holds 0. -/
  phys : List Host.Cell
  /-- The paged registers (R27): register k of page p has the key 16 * p + k; an unlisted one holds 0. -/
  pages : List Host.Cell
  /-- Register pointer RP0, a group number (R23). -/
  rp0 : BitVec 5
  /-- Register pointer RP1, a group number (R23). -/
  rp1 : BitVec 5
  /-- Two 8-register windows (true) or one 16-register window (R23). -/
  twin : Bool
  /-- The page pointer register R234 (R27). -/
  ppr : Byte
  /-- The flag register R231 (R31). -/
  flagr : Byte
  /-- The central interrupt control register R230 (R35). -/
  cicr : Byte
  /-- The program counter (R30). -/
  pc : Word
  /-- The code segment register, of which six bits are used (R38). -/
  csr : BitVec 6
  /-- ENCSR of EMR2 (R40). -/
  encsr : Bool
  /-- The system stack pointer (R36). -/
  ssp : Word
  /-- The user stack pointer (R36). -/
  usp : Word
  /-- The system stack is in the register file (R37); a device parameter. -/
  sspInRegfile : Bool
  /-- The user stack is in the register file (R37); a device parameter. -/
  uspInRegfile : Bool
  /-- Running, Waiting or Halted (R42). -/
  runState : RunState
  /-- Program and data memory by physical address (20_memory.md R60, R70); an unlisted byte reads 0. -/
  mem : List Host.Cell
  /-- `Translate(D, a)` where it differs from `zext_22(a)` (20_memory.md R70); a parameter, log entry 13. -/
  dataMap : List (Word × PhysAddr)
  /-- `MEM_PRESENT` where it differs from ram (20_memory.md R73); a parameter, log entry 8. -/
  memRegions : List MemRegion
  /-- What the environment does at the next boundaries; after the last entry it does nothing. -/
  inputs : List Boundary
  /-- The hidden state of DIVWS (44_muldiv.md R342). -/
  divwsHidden : Nat
  /-- The model's counter of free values: each instruction advances it. -/
  fresh : Nat
  /-- The model's own: the byte stores to ram of what is in progress, oldest first; the next boundary clears it. A
  reset that cuts an instruction short takes its part of them (70_reset_and_hazards.md R490, log entry 16). -/
  stores : List (PhysAddr × Byte)
deriving DecidableEq, Repr

/-- Why the machine faults. There is no such reason: the manual defines no fault (60_exceptions.md R450,
93_implementation_defined.md Part 1: "No entry has the treatment `fault`"). -/
inductive Fault
deriving DecidableEq, Repr

/-- Why the model stops. Each is an outcome of the model and not of the hardware (60_exceptions.md R450). -/
inductive Refusal
  /-- Raised by an arm of `exec` without a meaning; no arm raises it. Safe. -/
  | notModelled (mnemonic : String)
  /-- Raised by the fetch of a reserved encoding, and by ETRAP and ERET (30_encoding.md R103, R122,
  47_misc.md R437): `IllegalEncoding(address, bytes)`. Safe: the model goes no further. -/
  | illegalEncoding (address : Word) (bytes : List Byte)
  /-- Raised by a working-register access through a window laid over group D
  (93_implementation_defined.md U1): `Unsupported(U1)`, with the byte stores that had happened before the access
  (log entry 16). Safe. -/
  | unsupportedU1 (stored : List (PhysAddr × Byte))
  /-- Raised by a word instruction whose register pointer is odd
  (93_implementation_defined.md U2): `Unsupported(U2)`, before the instruction stores anything. Safe. -/
  | unsupportedU2
deriving DecidableEq, Repr

/-- The machine right after reset (70_reset_and_hazards.md R491): RunState Running, CSR 0, CICR bit 4 0 and
ENCSR 0 as the rule says. Every other register is 0 by log entry 1 and RESET_PC is 0 by log entry 4; memory,
translation and the device parameters are the defaults of 92_eei_decisions.md D3, D5, D6 and D8. -/
def State.reset : State where
  phys := []
  pages := []
  rp0 := 0
  rp1 := 0
  twin := false
  ppr := 0
  flagr := 0
  cicr := 0
  pc := 0
  csr := 0
  encsr := false
  ssp := 0
  usp := 0
  sspInRegfile := false
  uspInRegfile := false
  runState := .running
  mem := []
  dataMap := []
  memRegions := []
  inputs := []
  divwsHidden := 0
  fresh := 0
  stores := []

end Sys2Proof.Machine
end

