-- ==== Sys2Proof/Machine/Memory.lean ====
section
/-! DEFINITION. Sparse storage of bytes: lists of (key, byte) pairs in one canonical form.

The register-file cells, the paged registers and memory are each such a list. An unlisted key reads 0
(log entries 1 and 3). A write keeps the canonical form `Cells.wf`: keys strictly rising, no entry 0. -/

namespace Sys2Proof.Machine

/-- Sparse storage of bytes by key. -/
abbrev Cells := List Host.Cell

/-- The byte stored under a key; 0 where none is listed. -/
def Cells.read (m : Cells) (k : Nat) : Byte :=
  match m with
  | [] => 0
  | c :: m' => if c.1 = k then c.2 else Cells.read m' k

/-- The storage without its entries for a key. -/
def Cells.erase (m : Cells) (k : Nat) : Cells :=
  match m with
  | [] => []
  | c :: m' => if c.1 = k then Cells.erase m' k else c :: Cells.erase m' k

/-- The storage with an entry put before the first greater key. -/
def Cells.insert (m : Cells) (k : Nat) (v : Byte) : Cells :=
  match m with
  | [] => [(k, v)]
  | c :: m' => if k < c.1 then (k, v) :: c :: m' else c :: Cells.insert m' k v

/-- Stores a byte under a key. Storing what an unlisted key reads as removes the entry. -/
def Cells.write (m : Cells) (k : Nat) (v : Byte) : Cells :=
  if v = 0 then Cells.erase m k else Cells.insert (Cells.erase m k) k v

/-- Canonical from a key upward: strictly rising keys below `bound`, no entry 0. -/
def Cells.wfFrom (lo bound : Nat) (m : Cells) : Bool :=
  match m with
  | [] => true
  | c :: m' => decide (lo ≤ c.1) && decide (c.1 < bound) && c.2 != 0 && Cells.wfFrom (c.1 + 1) bound m'

/-- The canonical form: strictly rising keys below `bound`, no entry 0. -/
def Cells.wf (bound : Nat) (m : Cells) : Bool := Cells.wfFrom 0 bound m

/-- The canonical storage that reads as a list does, keys at or above `bound` dropped. -/
def Cells.normal (bound : Nat) (m : Cells) : Cells :=
  match m with
  | [] => []
  | c :: m' => if c.1 < bound then Cells.write (Cells.normal bound m') c.1 c.2 else Cells.normal bound m'

/-- The storage after those of a row of stores whose mark is true, in their order; a store without a mark does not
happen. -/
def Cells.land (marks : List Bool) (es : List (PhysAddr × Byte)) (m : Cells) : Cells :=
  match marks, es with
  | b :: bs, e :: es => Cells.land bs es (if b then Cells.write m e.1.toNat e.2 else m)
  | _, _ => m

/-- The storage with the listed bytes, at the addresses where `ok` holds; the first entry for an address counts. -/
def Cells.overlay (ok : PhysAddr → Bool) (es : List (PhysAddr × Byte)) (m : Cells) : Cells :=
  match es with
  | [] => m
  | e :: es =>
    if ok e.1 then Cells.write (Cells.overlay ok es m) e.1.toNat e.2 else Cells.overlay ok es m

/-- One past the greatest physical register-file address. -/
def physBound : Nat := 256

/-- The number of paged registers: 64 pages of 16 (10_state.md R27). -/
def pagesBound : Nat := 1024

/-- The number of physical memory bytes (20_memory.md R70). -/
def memBound : Nat := 4194304

/-- The canonical form of memory. -/
def Memory.wf (m : Cells) : Bool := Cells.wf memBound m

/-- The storage of a state is in its canonical form. -/
def State.wf (s : State) : Bool :=
  Cells.wf physBound s.phys && Cells.wf pagesBound s.pages && Memory.wf s.mem

end Sys2Proof.Machine
end

