-- ==== Sys2Proof/Machine/Ops.lean ====
section
/-! DEFINITION. The named operations over registers, memory and stacks (spec/10_state.md R21 to R40,
spec/20_memory.md R60 to R76, spec/43_stack.md R300 to R303), and taking an exception and returning from one
(spec/60_exceptions.md R452, R460, spec/46_control.md R372, spec/70_reset_and_hazards.md R491).

An operation that can meet a window over group D or an odd pair pointer answers in `Res`; the state it reads is
its last argument. Statement after statement reads the state the one before left
(93_implementation_defined.md U12, log entry 19). -/

namespace Sys2Proof.Machine

/-- What an operation answers: a value, or the reason why the model stops. -/
abbrev Res (α : Type) := Except Refusal α

/-- The outcome of a step of this machine. -/
abbrev Out := Host.Outcome State Fault Refusal

/-- The outcome of a step from the answer of a meaning. -/
def Res.outcome (r : Res State) : Out :=
  match r with
  | .ok s => .next s
  | .error e => .refused e

/-! ## Registers -/

/-- The address lies in group D, R208 to R223 (00_scope.md R15). -/
def isGroupD (a : Byte) : Bool := hiNib a == 0xD#4

/-- The register-file address of working register `rn`, 0xD0 + n (30_encoding.md R94). -/
def wregAddr (n : WReg) : Byte := nib 0xD n

/-- The physical address of working register `rn` in the current window (10_state.md R24). -/
def State.working (s : State) (n : WReg) : Byte :=
  if s.twin then (if n.getLsbD 3 then s.rp1 else s.rp0) ++ n.extractLsb' 0 3
  else s.rp0.extractLsb' 1 4 ++ n

/-- Address resolution: group D names the working registers (10_state.md R22, R24). -/
def State.addr (s : State) (a : Byte) : Byte :=
  if isGroupD a then s.working (loNib a) else a

/-- The byte image of a register pointer (10_state.md R26). PRESUMED, log entry 2. -/
def rpImage (g : BitVec 5) (twin : Bool) : Byte := g ++ BitVec.ofBool twin ++ 0#2

/-- The key of the paged register that address `p` of group F names on the current page (10_state.md R27). -/
def State.pageKey (s : State) (p : Byte) : Nat := (s.ppr.extractLsb' 2 6 ++ loNib p).toNat

/-- What stands at a physical register address (10_state.md R21, R25). -/
inductive RegRole
  /-- A register of group F, on the current page (R27). -/
  | paged
  /-- CICR (R35). -/
  | cicr
  /-- FLAGR (R31). -/
  | flagr
  /-- The image of RP0 (R26). -/
  | rp0
  /-- The image of RP1 (R26). -/
  | rp1
  /-- PPR (R27). -/
  | ppr
  /-- The high byte of the user stack pointer (R36). -/
  | uspHigh
  /-- The low byte of the user stack pointer (R36). -/
  | uspLow
  /-- The high byte of the system stack pointer (R36). -/
  | sspHigh
  /-- The low byte of the system stack pointer (R36). -/
  | sspLow
  /-- A register without another role (R21). -/
  | plain
deriving DecidableEq, Repr

/-- What stands at a physical register address (10_state.md R21, R25). -/
def regRole (p : Byte) : RegRole :=
  if hiNib p = 0xF#4 then .paged
  else if p = Config.regCICR then .cicr
  else if p = Config.regFLAGR then .flagr
  else if p = Config.regRP0 then .rp0
  else if p = Config.regRP1 then .rp1
  else if p = Config.regPPR then .ppr
  else if p = Config.regUSP then .uspHigh
  else if p = Config.regUSP + 1 then .uspLow
  else if p = Config.regSSP then .sspHigh
  else if p = Config.regSSP + 1 then .sspLow
  else .plain

/-- The register at a physical address: `Cell(p)` of 10_state.md R22, R24. -/
def State.cell (s : State) (p : Byte) : Byte :=
  match regRole p with
  | .paged => Cells.read s.pages (s.pageKey p)
  | .cicr => s.cicr
  | .flagr => s.flagr
  | .rp0 => rpImage s.rp0 s.twin
  | .rp1 => rpImage s.rp1 s.twin
  | .ppr => s.ppr
  | .uspHigh => s.usp.hi
  | .uspLow => s.usp.lo
  | .sspHigh => s.ssp.hi
  | .sspLow => s.ssp.lo
  | .plain => Cells.read s.phys p.toNat

/-- Stores into the register at a physical address (10_state.md R22, R24 to R27). -/
def State.setCell (s : State) (p : Byte) (v : Byte) : State :=
  match regRole p with
  | .paged => { s with pages := Cells.write s.pages (s.pageKey p) v }
  | .cicr => { s with cicr := v }
  | .flagr => { s with flagr := v }
  | .rp0 => { s with rp0 := v.extractLsb' 3 5, twin := v.getLsbD 2 }
  | .rp1 => { s with rp1 := v.extractLsb' 3 5, twin := v.getLsbD 2 }
  | .ppr => { s with ppr := v }
  | .uspHigh => { s with usp := word v s.usp.lo }
  | .uspLow => { s with usp := word s.usp.hi v }
  | .sspHigh => { s with ssp := word v s.ssp.lo }
  | .sspLow => { s with ssp := word s.ssp.hi v }
  | .plain => { s with phys := Cells.write s.phys p.toNat v }

/-- `Reg[a]` where no window lies over group D (10_state.md R22). -/
def State.reg (s : State) (a : Byte) : Byte := s.cell (s.addr a)

/-- `Reg[a] <- v` where no window lies over group D (10_state.md R22). -/
def State.setReg (s : State) (a : Byte) (v : Byte) : State := s.setCell (s.addr a) v

/-- The access to `Reg[a]` goes through a window over group D (93_implementation_defined.md U1). -/
def State.blocked (s : State) (a : Byte) : Bool := isGroupD (s.addr a)

/-- `Reg[a]` (10_state.md R22). -/
def readReg (a : Byte) (s : State) : Res Byte :=
  if s.blocked a then .error (.unsupportedU1 s.stores) else .ok (s.reg a)

/-- `Reg[a] <- v` (10_state.md R22). A write to RP0, RP1, PPR, FLAGR or a stack pointer is in force at once, also for
what the same instruction does after it. DESIGN CHOICE, log entry 36. -/
def writeReg (a v : Byte) (s : State) : Res State :=
  if s.blocked a then .error (.unsupportedU1 s.stores) else .ok (s.setReg a v)

/-- `RegW[a]`: the high byte is the first register (10_state.md R28). -/
def readPair (a : Byte) (s : State) : Res Word := do
  let h ← readReg a s
  let l ← readReg (a + 1) s
  .ok (word h l)

/-- `RegW[a] <- v`: the high byte first (10_state.md R28). -/
def writePair (a : Byte) (v : Word) (s : State) : Res State := do
  let s ← writeReg a v.hi s
  writeReg (a + 1) v.lo s

/-- `r[n]` (10_state.md R24). -/
def readW (n : WReg) (s : State) : Res Byte := readReg (wregAddr n) s

/-- `r[n] <- v` (10_state.md R24). -/
def writeW (n : WReg) (v : Byte) (s : State) : Res State := writeReg (wregAddr n) v s

/-- `rr[n]` (10_state.md R28). -/
def readWW (n : WPair) (s : State) : Res Word := readPair (wregAddr n) s

/-- `rr[n] <- v` (10_state.md R28). -/
def writeWW (n : WPair) (v : Word) (s : State) : Res State := writePair (wregAddr n) v s

/-- A pair address taken from a register; an odd one is refused (93_implementation_defined.md U2). -/
def evenAddr (a : Byte) : Res Byte := if byteFlag a then .error .unsupportedU2 else .ok a

/-- `rr[n] <- rr[n] + d` (20_memory.md R71). A post-increment goes through a register pointer or page pointer that
the instruction has just written. DESIGN CHOICE, log entry 36. -/
def bumpWW (n : WPair) (d : Word) (s : State) : Res State := do
  let v ← readWW n s
  writeWW n (v + d) s

/-- `r[n] <- r[n] + 1` modulo 256 (20_memory.md R72), through the pointers in force at that moment. DESIGN CHOICE,
log entry 36. -/
def bumpW (n : WReg) (s : State) : Res State := do
  let v ← readW n s
  writeW n (v + 1) s

/-! ## Memory -/

/-- `Translate(D, a)` from the data of the parameter (20_memory.md R70). -/
def translateData (m : List (Word × PhysAddr)) (a : Word) : PhysAddr :=
  match m with
  | [] => a.zeroExtend 22
  | e :: m' => if e.1 = a then e.2 else translateData m' a

/-- `Translate(sp, a)` (20_memory.md R70). -/
def State.translate (s : State) (sp : Space) (a : Word) : PhysAddr :=
  match sp with
  | .prog => s.csr ++ a
  | .data => translateData s.dataMap a

/-- `MEM_PRESENT(sp, p)` from the data of the parameter; ram by default (92_eei_decisions.md D6). -/
def memKind (m : List MemRegion) (sp : Space) (p : PhysAddr) : MemKind :=
  match m with
  | [] => .ram
  | r :: m' =>
    if r.space = sp ∧ r.base ≤ p.toNat ∧ p.toNat < r.base + r.size then r.kind else memKind m' sp p

/-- The byte at a physical address is RAM, seen from one of the two spaces (70_reset_and_hazards.md R491). -/
def isRam (m : List MemRegion) (p : PhysAddr) : Bool :=
  decide (memKind m .prog p = .ram) || decide (memKind m .data p = .ram)

/-- The byte that address `a` of space `sp` reads as, with physical address `p` (20_memory.md R62, R73). -/
def State.physByte (s : State) (role : ReadRole) (sp : Space) (a : Word) (p : PhysAddr) : Byte :=
  match memKind s.memRegions sp p with
  | .absent => Config.unbackedByte s.fresh role sp a
  | _ => Cells.read s.mem p.toNat

/-- `MemRead(sp, a, 1)` (20_memory.md R62). -/
def State.memByte (s : State) (role : ReadRole) (sp : Space) (a : Word) : Byte :=
  s.physByte role sp a (s.translate sp a)

/-- `MemRead(sp, a, 2)`: the high byte has the lower address (20_memory.md R63). -/
def State.memWord (s : State) (role : ReadRole) (sp : Space) (a : Word) : Word :=
  word (s.memByte role sp a) (s.memByte role sp (a + 1))

/-- `MemWrite(sp, a, 1, v)`; a write to rom or to no memory changes nothing (20_memory.md R64, R73). The store joins
the stores of what is in progress (log entry 16). -/
def State.setMemByte (s : State) (sp : Space) (a : Word) (v : Byte) : State :=
  match memKind s.memRegions sp (s.translate sp a) with
  | .ram => { s with
      mem := Cells.write s.mem (s.translate sp a).toNat v
      stores := s.stores ++ [(s.translate sp a, v)] }
  | _ => s

/-- `MemWrite(sp, a, 2, v)`: the lower address first (20_memory.md R64). -/
def State.setMemWord (s : State) (sp : Space) (a v : Word) : State :=
  (s.setMemByte sp a v.hi).setMemByte sp (a + 1) v.lo

/-- `OpSpace`, by FLAGR bit 0 (20_memory.md R61). -/
def State.opSpace (s : State) : Space := if s.flagr.getLsbD 0 then .data else .prog

/-! ## Stacks -/

/-- The two stacks (10_state.md R36). -/
inductive Stack
  | system
  | user
deriving DecidableEq, Repr

/-- The pointer of a stack (10_state.md R36). -/
def State.sp (s : State) (k : Stack) : Word :=
  match k with
  | .system => s.ssp
  | .user => s.usp

/-- Sets the pointer of a stack. -/
def State.setSp (s : State) (k : Stack) (v : Word) : State :=
  match k with
  | .system => { s with ssp := v }
  | .user => { s with usp := v }

/-- The low byte of the pointer of a stack. -/
def State.spLow (s : State) (k : Stack) : Byte := (s.sp k).lo

/-- Sets the low byte of the pointer of a stack (43_stack.md R304). -/
def State.setSpLow (s : State) (k : Stack) (v : Byte) : State := s.setSp k (word (s.sp k).hi v)

/-- Sets the high byte of the pointer of a stack. -/
def State.setSpHigh (s : State) (k : Stack) (v : Byte) : State := s.setSp k (word v (s.sp k).lo)

/-- The stack is in the register file (10_state.md R37). -/
def State.inRegfile (s : State) (k : Stack) : Bool :=
  match k with
  | .system => s.sspInRegfile
  | .user => s.uspInRegfile

/-- `PushS8` and `PushU8` (43_stack.md R300, R302). -/
def push8 (k : Stack) (v : Byte) (s : State) : Res State :=
  if s.inRegfile k then
    let s := s.setSpLow k (s.spLow k - 1)
    writeReg (s.spLow k) v s
  else
    let s := s.setSp k (s.sp k - 1)
    .ok (s.setMemByte .data (s.sp k) v)

/-- `PushS16` and `PushU16` (43_stack.md R300, R302). -/
def push16 (k : Stack) (w : Word) (s : State) : Res State :=
  if s.inRegfile k then do
    let s := s.setSpLow k (s.spLow k - 2)
    let s ← writeReg (s.spLow k) w.hi s
    writeReg (s.spLow k + 1) w.lo s
  else
    let s := s.setSp k (s.sp k - 2)
    .ok (s.setMemWord .data (s.sp k) w)

/-- `PopS8` and `PopU8` (43_stack.md R301, R303). -/
def pop8 (k : Stack) (s : State) : Res (Byte × State) :=
  if s.inRegfile k then do
    let v ← readReg (s.spLow k) s
    .ok (v, s.setSpLow k (s.spLow k + 1))
  else .ok (s.memByte .source .data (s.sp k), s.setSp k (s.sp k + 1))

/-- `PopS16` and `PopU16` (43_stack.md R301, R303). -/
def pop16 (k : Stack) (s : State) : Res (Word × State) :=
  if s.inRegfile k then do
    let h ← readReg (s.spLow k) s
    let l ← readReg (s.spLow k + 1) s
    .ok (word h l, s.setSpLow k (s.spLow k + 2))
  else .ok (s.memWord .source .data (s.sp k), s.setSp k (s.sp k + 2))

/-! ## Exceptions, interrupts, reset -/

/-- Writes bit 4 of CICR (10_state.md R35). -/
def State.setIen (s : State) (b : Bool) : State :=
  { s with cicr := (s.cicr &&& 0xEF) ||| (if b then 0x10 else 0) }

/-- Bit 4 of CICR (10_state.md R35). -/
def State.ien (s : State) : Bool := s.cicr.getLsbD 4

/-- A byte of the divide-by-zero vector, from segment 0 (20_memory.md R68, 60_exceptions.md R452). -/
def State.vectorByte (s : State) (a : Word) : Byte := s.physByte .vector .prog a (a.zeroExtend 22)

/-- `raise DivideByZero` (60_exceptions.md R452). -/
def takeDivideByZero (s : State) : Res State := do
  let s ← push16 .system s.pc s
  .ok { s with pc := word (s.vectorByte Config.divideVector) (s.vectorByte (Config.divideVector + 1)) }

/-- Pushes CSR, if the interrupt frame holds it (10_state.md R40). -/
def pushCsr (s : State) : Res State :=
  if s.encsr then push8 .system (s.csr.zeroExtend 8) s else .ok s

/-- Pops CSR, if the interrupt frame holds it (10_state.md R40). -/
def popCsr (s : State) : Res State :=
  if s.encsr then do
    let (c, s) ← pop8 .system s
    .ok { s with csr := c.extractLsb' 0 6 }
  else .ok s

/-- Interrupt entry with an accepted request (60_exceptions.md R460). -/
def takeInterrupt (q : IrqRequest) (s : State) : Res State := do
  let s ← push16 .system s.pc s
  let s ← pushCsr s
  let s ← push8 .system s.flagr s
  let s := s.setIen false
  .ok { s with csr := if s.encsr then q.seg else s.csr, pc := q.vector, runState := .running }

/-- The return from an interrupt (46_control.md R372). -/
def returnFromInterrupt (s : State) : Res State := do
  let (f, s) ← pop8 .system s
  let s ← popCsr { s with flagr := f }
  let (t, s) ← pop16 .system s
  .ok ({ s with pc := t }.setIen true)

/-- Reset (70_reset_and_hazards.md R490, R491). The translation and the device parameters stay, and memory but for
the RAM bytes that a loss of power changed; the counter of free values advances past what an abandoned instruction
used (log entry 16). -/
def applyReset (p : ResetParams) (s : State) : State :=
  { s with
    phys := Cells.normal physBound p.phys
    pages := Cells.normal pagesBound p.pages
    rp0 := p.rp0
    rp1 := p.rp1
    twin := p.twin
    ppr := p.ppr
    flagr := p.flagr
    cicr := p.cicr &&& 0xEF
    pc := p.pc
    csr := 0
    encsr := false
    ssp := p.ssp
    usp := p.usp
    runState := .running
    mem := Cells.overlay (isRam s.memRegions) p.ramLost s.mem
    divwsHidden := p.divwsHidden
    fresh := s.fresh + 1 }

end Sys2Proof.Machine
end

