-- ==== Sys2Proof/Machine/Flags.lean ====
section
/-! DEFINITION. The flags and every flag computation (spec/10_state.md R31 to R34, spec/41_alu2.md R204 to R206,
spec/42_alu1.md R262 to R278). Carries and borrows come from exact arithmetic on Nat. A flag that its rule calls
undefined is a free value of `Config.freeFlag` (log entry 5). -/

namespace Sys2Proof.Machine

/-- `setbit(v, i, x)` of 45_boolean.md R350: bit `i` becomes `x`, the other bits stay. -/
def setBit (v : Byte) (i : Nat) (x : Bool) : Byte :=
  (v &&& ~~~(1#8 <<< i)) ||| (if x then 1#8 <<< i else 0#8)

/-- The bit of FLAGR that holds a flag (10_state.md R31). -/
def flagBit : FlagName → Nat
  | .c => 7
  | .z => 6
  | .s => 5
  | .v => 4
  | .d => 3
  | .h => 2

/-- A flag of the state (10_state.md R31). -/
def State.flag (s : State) (f : FlagName) : Bool := s.flagr.getLsbD (flagBit f)

/-- What an instruction writes into each flag; `none` leaves it unaffected. -/
structure FlagUpdate where
  c : Option Bool := none
  z : Option Bool := none
  s : Option Bool := none
  v : Option Bool := none
  d : Option Bool := none
  h : Option Bool := none
deriving DecidableEq, Repr

/-- Writes one flag of a FLAGR byte, if it is to be written. -/
def putFlag (f : FlagName) (x : Option Bool) (r : Byte) : Byte :=
  match x with
  | none => r
  | some b => setBit r (flagBit f) b

/-- The FLAGR byte after an update: bits 1 and 0 stay (10_state.md R31). -/
def FlagUpdate.apply (u : FlagUpdate) (r : Byte) : Byte :=
  putFlag .c u.c <| putFlag .z u.z <| putFlag .s u.s <| putFlag .v u.v <| putFlag .d u.d <| putFlag .h u.h r

/-- Writes the flags of an update into FLAGR (41_alu2.md R203 step 8). -/
def State.setFlags (s : State) (u : FlagUpdate) : State := { s with flagr := u.apply s.flagr }

/-- A free value for a flag of this execution (93_implementation_defined.md U5). -/
def State.freeFlag (s : State) (f : FlagName) : Option Bool := some (Config.freeFlag s.fresh f)

/-- The truth of a condition code (10_state.md R33). -/
def State.cond (s : State) (cc : BitVec 4) : Bool :=
  match cc with
  | 0x0#4 => false
  | 0x1#4 => s.flag .s ^^ s.flag .v
  | 0x2#4 => s.flag .z || (s.flag .s ^^ s.flag .v)
  | 0x3#4 => s.flag .c || s.flag .z
  | 0x4#4 => s.flag .v
  | 0x5#4 => s.flag .s
  | 0x6#4 => s.flag .z
  | 0x7#4 => s.flag .c
  | 0x8#4 => true
  | 0x9#4 => !(s.flag .s ^^ s.flag .v)
  | 0xA#4 => !(s.flag .z || (s.flag .s ^^ s.flag .v))
  | 0xB#4 => !s.flag .c && !s.flag .z
  | 0xC#4 => !s.flag .v
  | 0xD#4 => !s.flag .s
  | 0xE#4 => !s.flag .z
  | _ => !s.flag .c

/-- The result of a byte operation and the flags it defines. -/
structure ByteResult where
  value : Byte
  flags : FlagUpdate
deriving DecidableEq, Repr

/-- The result of a word operation and the flags it defines. -/
structure WordResult where
  value : Word
  flags : FlagUpdate
deriving DecidableEq, Repr

/-! ## Two operands -/

/-- `ADD8(a, b, c)` (41_alu2.md R204). -/
def add8 (a b : Byte) (c : Bool) : ByteResult :=
  let sum := a.toNat + b.toNat + c.toNat
  let r := BitVec.ofNat 8 sum
  { value := r
    flags :=
      { c := some (decide (256 ≤ sum))
        z := some (r == 0)
        s := some r.msb
        v := some (a.msb == b.msb && r.msb != a.msb)
        d := some false
        h := some (decide (16 ≤ a.toNat % 16 + b.toNat % 16 + c.toNat)) } }

/-- `SUB8(a, b, c)` (41_alu2.md R205). -/
def sub8 (a b : Byte) (c : Bool) : ByteResult :=
  let r := BitVec.ofInt 8 ((a.toNat : Int) - b.toNat - c.toNat)
  { value := r
    flags :=
      { c := some (decide (a.toNat < b.toNat + c.toNat))
        z := some (r == 0)
        s := some r.msb
        v := some (a.msb != b.msb && r.msb != a.msb)
        d := some true
        h := some (decide (a.toNat % 16 < b.toNat % 16 + c.toNat)) } }

/-- The comparison flags: those of SUB without D and H (41_alu2.md R205, R217). -/
def cmp8 (a b : Byte) : ByteResult :=
  let r := sub8 a b false
  { value := r.value, flags := { r.flags with d := none, h := none } }

/-- `LOG8(t)` (41_alu2.md R206). -/
def log8 (t : Byte) : ByteResult :=
  { value := t, flags := { z := some (t == 0), s := some t.msb, v := some false } }

/-- `ADD16(a, b, c)` (41_alu2.md R204): D and H are the free values `d`, `h`. -/
def add16 (a b : Word) (c : Bool) (d h : Option Bool) : WordResult :=
  let sum := a.toNat + b.toNat + c.toNat
  let r := BitVec.ofNat 16 sum
  { value := r
    flags :=
      { c := some (decide (65536 ≤ sum))
        z := some (r == 0)
        s := some r.msb
        v := some (a.msb == b.msb && r.msb != a.msb)
        d := d
        h := h } }

/-- `SUB16(a, b, c)` (41_alu2.md R205): D and H are the free values `d`, `h`. -/
def sub16 (a b : Word) (c : Bool) (d h : Option Bool) : WordResult :=
  let r := BitVec.ofInt 16 ((a.toNat : Int) - b.toNat - c.toNat)
  { value := r
    flags :=
      { c := some (decide (a.toNat < b.toNat + c.toNat))
        z := some (r == 0)
        s := some r.msb
        v := some (a.msb != b.msb && r.msb != a.msb)
        d := d
        h := h } }

/-- `LOG16(t)` (41_alu2.md R206). -/
def log16 (t : Word) : WordResult :=
  { value := t, flags := { z := some (t == 0), s := some t.msb, v := some false } }

/-- The operation of a byte instruction on destination `d`, source `v` and carry `c` (41_alu2.md R210 to R219). -/
def aluOp8 (op : AluOp) (d v : Byte) (c : Bool) : ByteResult :=
  match op with
  | .or => log8 (d ||| v)
  | .and => log8 (d &&& v)
  | .sbc => sub8 d v c
  | .adc => add8 d v c
  | .add => add8 d v false
  | .sub => sub8 d v false
  | .xor => log8 (d ^^^ v)
  | .tcm => log8 (~~~d &&& v)
  | .cp => cmp8 d v
  | .tm => log8 (d &&& v)

/-- The operation of a word instruction on destination `d`, source `v` and carry `c`; `fd` and `fh` are the free
values of D and H (41_alu2.md R220 to R229). -/
def aluOp16 (op : AluOp) (d v : Word) (c : Bool) (fd fh : Option Bool) : WordResult :=
  match op with
  | .or => log16 (d ||| v)
  | .and => log16 (d &&& v)
  | .sbc => sub16 d v c fd fh
  | .adc => add16 d v c fd fh
  | .add => add16 d v false fd fh
  | .sub => sub16 d v false fd fh
  | .xor => log16 (d ^^^ v)
  | .tcm => log16 (~~~d &&& v)
  | .cp => sub16 d v false none none
  | .tm => log16 (d &&& v)

/-- Whether an operation stores its result (41_alu2.md R203 step 7). -/
def aluStores : AluOp → Bool
  | .tcm | .cp | .tm => false
  | _ => true

/-! ## One operand -/

/-- INC (42_alu1.md R262). -/
def inc8 (d : Byte) : ByteResult :=
  let r := d + 1
  { value := r, flags := { z := some (r == 0), s := some r.msb, v := some (d == 0x7F) } }

/-- DEC (42_alu1.md R263). -/
def dec8 (d : Byte) : ByteResult :=
  let r := d - 1
  { value := r, flags := { z := some (r == 0), s := some r.msb, v := some (d == 0x80) } }

/-- INCW (42_alu1.md R264). -/
def inc16 (d : Word) : WordResult :=
  let r := d + 1
  { value := r, flags := { z := some (r == 0), s := some r.msb, v := some (d == 0x7FFF) } }

/-- DECW (42_alu1.md R265). -/
def dec16 (d : Word) : WordResult :=
  let r := d - 1
  { value := r, flags := { z := some (r == 0), s := some r.msb, v := some (d == 0x8000) } }

/-- CPL (42_alu1.md R267). -/
def cpl8 (d : Byte) : ByteResult := log8 (~~~d)

/-- SWAP (42_alu1.md R268): C and V are the free values `c`, `v`. -/
def swap8 (d : Byte) (c v : Option Bool) : ByteResult :=
  let r := nib (loNib d) (hiNib d)
  { value := r, flags := { c := c, z := some (r == 0), s := some r.msb, v := v } }

/-- DA (42_alu1.md R270): V is the free value `v`. Outside the manual's table it is the spec's own extension
(92_eei_decisions.md D19, log entry 22). -/
def da8 (d : Byte) (fc fd fh : Bool) (v : Option Bool) : ByteResult :=
  let lo := (loNib d).toNat
  let hi := (hiNib d).toNat
  let adjL := if fd then fh else fh || decide (9 < lo)
  let adjH := if fd then fc else fc || decide (9 < hi) || (decide (hi = 9) && decide (9 < lo))
  let add : Byte :=
    if fd then (if adjL then 0xFA else 0) + (if adjH then 0xA0 else 0)
    else (if adjL then 0x06 else 0) + (if adjH then 0x60 else 0)
  let r := d + add
  { value := r, flags := { c := some adjH, z := some (r == 0), s := some r.msb, v := v } }

/-- The flags of a byte rotate: V tells whether bit 7 changed (42_alu1.md R271 to R274). -/
def rotate8 (d r : Byte) (c : Bool) : ByteResult :=
  { value := r, flags := { c := some c, z := some (r == 0), s := some r.msb, v := some (r.msb != d.msb) } }

/-- RLC (42_alu1.md R271). -/
def rlc8 (d : Byte) (c : Bool) : ByteResult := rotate8 d (d.extractLsb' 0 7 ++ BitVec.ofBool c) d.msb

/-- RRC (42_alu1.md R272). -/
def rrc8 (d : Byte) (c : Bool) : ByteResult := rotate8 d (BitVec.ofBool c ++ d.extractLsb' 1 7) (d.getLsbD 0)

/-- ROL (42_alu1.md R273). -/
def rol8 (d : Byte) : ByteResult := rotate8 d (d.extractLsb' 0 7 ++ d.extractLsb' 7 1) d.msb

/-- ROR (42_alu1.md R274). -/
def ror8 (d : Byte) : ByteResult := rotate8 d (d.extractLsb' 0 1 ++ d.extractLsb' 1 7) (d.getLsbD 0)

/-- SRA (42_alu1.md R277). -/
def sra8 (d : Byte) : ByteResult :=
  let r : Byte := d.extractLsb' 7 1 ++ d.extractLsb' 1 7
  { value := r, flags := { c := some (d.getLsbD 0), z := some (r == 0), s := some r.msb, v := some false } }

/-- The flags of a word rotate: Z is the free value `z`, V tells whether bit 15 changed (42_alu1.md R275, R276). -/
def rotate16 (d r : Word) (c : Bool) (z : Option Bool) : WordResult :=
  { value := r, flags := { c := some c, z := z, s := some r.msb, v := some (r.msb != d.msb) } }

/-- RLCW (42_alu1.md R275). -/
def rlc16 (d : Word) (c : Bool) (z : Option Bool) : WordResult :=
  rotate16 d (d.extractLsb' 0 15 ++ BitVec.ofBool c) d.msb z

/-- RRCW (42_alu1.md R276). -/
def rrc16 (d : Word) (c : Bool) (z : Option Bool) : WordResult :=
  rotate16 d (BitVec.ofBool c ++ d.extractLsb' 1 15) (d.getLsbD 0) z

/-- SRAW (42_alu1.md R278). -/
def sra16 (d : Word) : WordResult :=
  let r : Word := d.extractLsb' 15 1 ++ d.extractLsb' 1 15
  { value := r, flags := { c := some (d.getLsbD 0), z := some (r == 0), s := some r.msb, v := some false } }

/-- MUL (44_muldiv.md R340): H is the free value `h`. -/
def mul8 (a b : Byte) (h : Option Bool) : WordResult :=
  let p : Word := BitVec.ofNat 16 (a.toNat * b.toNat)
  { value := p
    flags :=
      { c := some (p.getLsbD 0), z := some (p.hi == 0), s := some p.msb, v := some (p.lo == 0)
        d := some false, h := h } }

end Sys2Proof.Machine
end

