-- ==== Sys2Proof/Machine/Operands.lean ====
section
/-! DEFINITION. Every operand form (spec/41_alu2.md R200 to R203, spec/40_load.md, spec/42_alu1.md R260,
spec/20_memory.md R71, R72).

A form with a destination and a source has four parts, in the order of 41_alu2.md R203: `pre` applies the
pre-decrement, `dst` gives the destination location, `src` the source value, `post` applies the post-increment.
`pre` and `post` of a form without them leave the state as it is. -/

namespace Sys2Proof.Machine

/-- Where a destination operand lies. -/
inductive Loc
  /-- The register at a register-file address; for a word the pair that starts there. -/
  | reg (a : Byte)
  /-- Memory in `OpSpace` at an effective address. -/
  | mem (a : Word)
deriving DecidableEq, Repr

/-- Reads the destination byte (41_alu2.md R203 step 5). -/
def readDst8 (l : Loc) (s : State) : Res Byte :=
  match l with
  | .reg a => readReg a s
  | .mem a => .ok (s.memByte .dest s.opSpace a)

/-- Stores the destination byte (41_alu2.md R203 step 7). -/
def store8 (l : Loc) (v : Byte) (s : State) : Res State :=
  match l with
  | .reg a => writeReg a v s
  | .mem a => .ok (s.setMemByte s.opSpace a v)

/-- Reads the destination word (41_alu2.md R203 step 5). -/
def readDst16 (l : Loc) (s : State) : Res Word :=
  match l with
  | .reg a => readPair a s
  | .mem a => .ok (s.memWord .dest s.opSpace a)

/-- Stores the destination word (41_alu2.md R203 step 7). -/
def store16 (l : Loc) (v : Word) (s : State) : Res State :=
  match l with
  | .reg a => writePair a v s
  | .mem a => .ok (s.setMemWord s.opSpace a v)

/-- The source byte `M[a]` of `OpSpace` (41_alu2.md R201). -/
def State.srcByte (s : State) (a : Word) : Byte := s.memByte .source s.opSpace a

/-- The source word `MW[a]` of `OpSpace` (41_alu2.md R202). -/
def State.srcWord (s : State) (a : Word) : Word := s.memWord .source s.opSpace a

/-! ## Effective addresses (20_memory.md R71) -/

/-- `N(rrx)`: the short offset is sign-extended. -/
def eaShort (n : Byte) (rrx : WPair) (s : State) : Res Word := do
  let x ← readWW rrx s
  .ok (x + n.signExtend 16)

/-- `NN(rrx)`. -/
def eaLong (nn : Word) (rrx : WPair) (s : State) : Res Word := do
  let x ← readWW rrx s
  .ok (x + nn)

/-- `rrn(rrx)`. -/
def eaPair (rrn rrx : WPair) (s : State) : Res Word := do
  let x ← readWW rrx s
  let n ← readWW rrn s
  .ok (x + n)

/-- `N(rx)` of the register file, modulo 256 (20_memory.md R72). -/
def eaReg (n : Byte) (rx : WReg) (s : State) : Res Byte := do
  let x ← readW rx s
  .ok (n + x)

/-! ## Byte forms A5 to A23 -/

/-- The pre-decrement of a byte form. -/
def KByteForm.pre (f : KByteForm) (s : State) : Res State :=
  match f with
  | .a11 _ rrs => bumpWW rrs (-1) s
  | .a12 rrd _ => bumpWW rrd (-1) s
  | _ => .ok s

/-- The destination location of a byte form (41_alu2.md R201, column D). -/
def KByteForm.dst (f : KByteForm) (s : State) : Res Loc :=
  match f with
  | .a5 rd _ => do .ok (.reg (← readW rd s))
  | .a6 rd _ => .ok (.reg rd)
  | .a7 rd _ => .ok (.reg rd)
  | .a8 rrd _ => do .ok (.mem (← readWW rrd s))
  | .a9 rd _ => .ok (.reg rd)
  | .a10 rrd _ => do .ok (.mem (← readWW rrd s))
  | .a11 rd _ => .ok (.reg rd)
  | .a12 rrd _ => do .ok (.mem (← readWW rrd s))
  | .a13 rd _ _ => .ok (.reg (wregAddr rd))
  | .a14 rrn rrx _ => do .ok (.mem (← eaPair rrn rrx s))
  | .a15 rd _ _ => .ok (.reg rd)
  | .a16 rd _ _ => .ok (.reg rd)
  | .a17 n rrx _ => do .ok (.mem (← eaShort n rrx s))
  | .a18 nn rrx _ => do .ok (.mem (← eaLong nn rrx s))
  | .a19 rd _ => .ok (.reg (wregAddr rd))
  | .a20 nn _ => .ok (.mem nn)
  | .a21 rrd _ => do .ok (.mem (← readPair rrd s))
  | .a22 rrd _ => do .ok (.mem (← readWW rrd s))
  | .a23 nn _ => .ok (.mem nn)

/-- The source value of a byte form (41_alu2.md R201, column S). -/
def KByteForm.src (f : KByteForm) (s : State) : Res Byte :=
  match f with
  | .a5 _ rs => readReg rs s
  | .a6 _ rs => do readReg (← readW rs s) s
  | .a7 _ rrs => do .ok (s.srcByte (← readWW rrs s))
  | .a8 _ rs => readReg rs s
  | .a9 _ rrs => do .ok (s.srcByte (← readWW rrs s))
  | .a10 _ rs => readReg rs s
  | .a11 _ rrs => do .ok (s.srcByte (← readWW rrs s))
  | .a12 _ rs => readReg rs s
  | .a13 _ rrn rrx => do .ok (s.srcByte (← eaPair rrn rrx s))
  | .a14 _ _ rs => readW rs s
  | .a15 _ n rrx => do .ok (s.srcByte (← eaShort n rrx s))
  | .a16 _ nn rrx => do .ok (s.srcByte (← eaLong nn rrx s))
  | .a17 _ _ rs => readReg rs s
  | .a18 _ _ rs => readReg rs s
  | .a19 _ nn => .ok (s.srcByte nn)
  | .a20 _ rs => readW rs s
  | .a21 _ rrs => do .ok (s.srcByte (← readWW rrs s))
  | .a22 _ n => .ok n
  | .a23 _ n => .ok n

/-- The post-increment of a byte form. -/
def KByteForm.post (f : KByteForm) (s : State) : Res State :=
  match f with
  | .a9 _ rrs => bumpWW rrs 1 s
  | .a10 rrd _ => bumpWW rrd 1 s
  | _ => .ok s

/-! ## Byte forms A1 to A23 -/

/-- The pre-decrement of a byte form. -/
def AluByteForm.pre (f : AluByteForm) (s : State) : Res State :=
  match f with
  | .k f => KByteForm.pre f s
  | _ => .ok s

/-- The destination location of a byte form (41_alu2.md R201, column D). -/
def AluByteForm.dst (f : AluByteForm) (s : State) : Res Loc :=
  match f with
  | .a1 rd _ => .ok (.reg (wregAddr rd))
  | .a2 rd _ => .ok (.reg (wregAddr rd))
  | .a3 rd _ => .ok (.reg rd)
  | .a4 rd _ => .ok (.reg rd)
  | .k f => KByteForm.dst f s

/-- The source value of a byte form (41_alu2.md R201, column S). -/
def AluByteForm.src (f : AluByteForm) (s : State) : Res Byte :=
  match f with
  | .a1 _ rs => readW rs s
  | .a2 _ rs => do readReg (← readW rs s) s
  | .a3 _ rs => readReg rs s
  | .a4 _ n => .ok n
  | .k f => KByteForm.src f s

/-- The post-increment of a byte form. -/
def AluByteForm.post (f : AluByteForm) (s : State) : Res State :=
  match f with
  | .k f => KByteForm.post f s
  | _ => .ok s

/-! ## Word forms W7 to W26 -/

/-- The pre-decrement of a word form. -/
def KWordForm.pre (f : KWordForm) (s : State) : Res State :=
  match f with
  | .w12 _ rrs => bumpWW rrs (-2) s
  | .w13 rrd _ => bumpWW rrd (-2) s
  | _ => .ok s

/-- The destination location of a word form (41_alu2.md R202, column D). An odd pair address is refused
(93_implementation_defined.md U2). -/
def KWordForm.dst (f : KWordForm) (s : State) : Res Loc :=
  match f with
  | .w7 rd _ => do .ok (.reg (← evenAddr (← readW rd s)))
  | .w8 rrd _ => .ok (.reg rrd)
  | .w9 rrd _ => .ok (.reg rrd)
  | .w10 rrd _ => .ok (.reg rrd)
  | .w11 rrd _ => do .ok (.mem (← readWW rrd s))
  | .w12 rrd _ => .ok (.reg rrd)
  | .w13 rrd _ => do .ok (.mem (← readWW rrd s))
  | .w14 rrd _ _ => .ok (.reg (wregAddr rrd))
  | .w15 rrn rrx _ => do .ok (.mem (← eaPair rrn rrx s))
  | .w16 rrd _ _ => .ok (.reg rrd)
  | .w17 rrd _ _ => .ok (.reg rrd)
  | .w18 n rrx _ => do .ok (.mem (← eaShort n rrx s))
  | .w19 nn rrx _ => do .ok (.mem (← eaLong nn rrx s))
  | .w20 rrd _ => .ok (.reg (wregAddr rrd))
  | .w21 nn _ => .ok (.mem nn)
  | .w22 rrd _ => do .ok (.mem (← readWW rrd s))
  | .w23 rrd _ => do .ok (.mem (← readWW rrd s))
  | .w24 n rrx _ => do .ok (.mem (← eaShort n rrx s))
  | .w25 ofs rrx _ => do .ok (.mem (← eaLong ofs rrx s))
  | .w26 addr _ => .ok (.mem addr)

/-- The source value of a word form (41_alu2.md R202, column S). An odd pair address is refused
(93_implementation_defined.md U2). -/
def KWordForm.src (f : KWordForm) (s : State) : Res Word :=
  match f with
  | .w7 _ rrs => readPair rrs s
  | .w8 _ rs => do readPair (← evenAddr (← readW rs s)) s
  | .w9 _ rrs => do .ok (s.srcWord (← readWW rrs s))
  | .w10 _ rrs => do .ok (s.srcWord (← readWW rrs s))
  | .w11 _ rrs => readPair rrs s
  | .w12 _ rrs => do .ok (s.srcWord (← readWW rrs s))
  | .w13 _ rrs => readPair rrs s
  | .w14 _ rrn rrx => do .ok (s.srcWord (← eaPair rrn rrx s))
  | .w15 _ _ rrs => readWW rrs s
  | .w16 _ n rrx => do .ok (s.srcWord (← eaShort n rrx s))
  | .w17 _ nn rrx => do .ok (s.srcWord (← eaLong nn rrx s))
  | .w18 _ _ rrs => readPair rrs s
  | .w19 _ _ rrs => readPair rrs s
  | .w20 _ nn => .ok (s.srcWord nn)
  | .w21 _ rrs => readWW rrs s
  | .w22 _ rrs => readPair rrs s
  | .w23 _ nn => .ok nn
  | .w24 _ _ nn => .ok nn
  | .w25 _ _ nn => .ok nn
  | .w26 _ nn => .ok nn

/-- The post-increment of a word form. -/
def KWordForm.post (f : KWordForm) (s : State) : Res State :=
  match f with
  | .w10 _ rrs => bumpWW rrs 2 s
  | .w11 rrd _ => bumpWW rrd 2 s
  | _ => .ok s

/-! ## Word forms W1 to W26 -/

/-- The pre-decrement of a word form. -/
def AluWordForm.pre (f : AluWordForm) (s : State) : Res State :=
  match f with
  | .k f => KWordForm.pre f s
  | _ => .ok s

/-- The destination location of a word form (41_alu2.md R202, column D). -/
def AluWordForm.dst (f : AluWordForm) (s : State) : Res Loc :=
  match f with
  | .w1 rrd _ => .ok (.reg (wregAddr rrd))
  | .w2 rrd _ => .ok (.reg (wregAddr rrd))
  | .w3 rrd _ => do .ok (.mem (← readWW rrd s))
  | .w4 rrd _ => do .ok (.mem (← readWW rrd s))
  | .w5 rrd _ => .ok (.reg rrd)
  | .w6 rrd _ => .ok (.reg rrd)
  | .k f => KWordForm.dst f s

/-- The source value of a word form (41_alu2.md R202, column S). -/
def AluWordForm.src (f : AluWordForm) (s : State) : Res Word :=
  match f with
  | .w1 _ rrs => readWW rrs s
  | .w2 _ rrs => do .ok (s.srcWord (← readWW rrs s))
  | .w3 _ rrs => readWW rrs s
  | .w4 _ rrs => do .ok (s.srcWord (← readWW rrs s))
  | .w5 _ rrs => readPair rrs s
  | .w6 _ nn => .ok nn
  | .k f => KWordForm.src f s

/-- The post-increment of a word form. -/
def AluWordForm.post (f : AluWordForm) (s : State) : Res State :=
  match f with
  | .k f => KWordForm.post f s
  | _ => .ok s

/-! ## LD and LDW forms -/

/-- The pre-decrement of an LD form. -/
def LdForm.pre (f : LdForm) (s : State) : Res State :=
  match f with
  | .k f => KByteForm.pre f s
  | _ => .ok s

/-- The destination location of an LD form (40_load.md R141 to R170). -/
def LdForm.dst (f : LdForm) (s : State) : Res Loc :=
  match f with
  | .x8 rd _ => .ok (.reg (wregAddr rd))
  | .x9 rd _ => .ok (.reg rd)
  | .xC rd _ => .ok (.reg (wregAddr rd))
  | .e4 rd _ => .ok (.reg (wregAddr rd))
  | .e5 rd _ => do .ok (.reg (← readW rd s))
  | .b2 n rx _ => do .ok (.reg (← eaReg n rx s))
  | .b3 rd _ _ => .ok (.reg (wregAddr rd))
  | .f4 rd _ => .ok (.reg rd)
  | .f5 rd _ => .ok (.reg rd)
  | .b5Load rd _ => .ok (.reg (wregAddr rd))
  | .b5Store rrd _ => do .ok (.mem (← readWW rrd s))
  | .d7Load rd _ => do .ok (.reg (← readW rd s))
  | .d7Store rrd _ => do .ok (.mem (← readWW rrd s))
  | .k f => KByteForm.dst f s

/-- The source value of an LD form (40_load.md R141 to R170). -/
def LdForm.src (f : LdForm) (s : State) : Res Byte :=
  match f with
  | .x8 _ rs => readReg rs s
  | .x9 _ rs => readW rs s
  | .xC _ n => .ok n
  | .e4 _ rs => do readReg (← readW rs s) s
  | .e5 _ rs => readW rs s
  | .b2 _ _ rs => readW rs s
  | .b3 _ n rx => do readReg (← eaReg n rx s) s
  | .f4 _ rs => readReg rs s
  | .f5 _ n => .ok n
  | .b5Load _ rrs => do .ok (s.srcByte (← readWW rrs s))
  | .b5Store _ rs => readW rs s
  | .d7Load _ rrs => do .ok (s.srcByte (← readWW rrs s))
  | .d7Store _ rs => do readReg (← readW rs s) s
  | .k f => KByteForm.src f s

/-- The post-increments of an LD form, in the order of 40_load.md R154, R155. -/
def LdForm.post (f : LdForm) (s : State) : Res State :=
  match f with
  | .d7Load rd rrs => do bumpWW rrs 1 (← bumpW rd s)
  | .d7Store rrd rs => do bumpWW rrd 1 (← bumpW rs s)
  | .k f => KByteForm.post f s
  | _ => .ok s

/-- The pre-decrement of an LDW form. -/
def LdwForm.pre (f : LdwForm) (s : State) : Res State :=
  match f with
  | .k f => KWordForm.pre f s
  | _ => .ok s

/-- The destination location of an LDW form (40_load.md R176 to R199). An odd pair address is refused
(93_implementation_defined.md U2). -/
def LdwForm.dst (f : LdwForm) (s : State) : Res Loc :=
  match f with
  | .e3 rrd _ => .ok (.reg (wregAddr rrd))
  | .e3Load rrd _ => .ok (.reg (wregAddr rrd))
  | .e3Store rrd _ => do .ok (.mem (← readWW rrd s))
  | .e3Move rrd _ => do .ok (.mem (← readWW rrd s))
  | .ef rrd _ => .ok (.reg rrd)
  | .bf rrd _ => .ok (.reg rrd)
  | .deStore n rx _ => do .ok (.reg (← evenAddr (← eaReg n rx s)))
  | .deLoad rrd _ _ => .ok (.reg (wregAddr rrd))
  | .k f => KWordForm.dst f s

/-- The source value of an LDW form (40_load.md R176 to R199). An odd pair address is refused: for R181 the
rule says so (93_implementation_defined.md U2), for R182 by the same reading. DEDUCED, log entry 10. -/
def LdwForm.src (f : LdwForm) (s : State) : Res Word :=
  match f with
  | .e3 _ rrs => readWW rrs s
  | .e3Load _ rrs => do .ok (s.srcWord (← readWW rrs s))
  | .e3Store _ rrs => readWW rrs s
  | .e3Move _ rrs => do .ok (s.srcWord (← readWW rrs s))
  | .ef _ rrs => readPair rrs s
  | .bf _ nn => .ok nn
  | .deStore _ _ rrs => readWW rrs s
  | .deLoad _ n rx => do readPair (← evenAddr (← eaReg n rx s)) s
  | .k f => KWordForm.src f s

/-- The post-increment of an LDW form. -/
def LdwForm.post (f : LdwForm) (s : State) : Res State :=
  match f with
  | .k f => KWordForm.post f s
  | _ => .ok s

/-! ## Other operands -/

/-- The register-file address of the target T of a one-operand instruction (42_alu1.md R260). -/
def targetAddr (t : ByteTarget) (s : State) : Res Byte :=
  match t with
  | .direct r => .ok r
  | .indirect r => readReg r s

/-- The byte that PUSH and PUSHU push (43_stack.md R305, R307). -/
def pushByte (f : PushForm) (s : State) : Res Byte :=
  match f with
  | .reg t => do readReg (← targetAddr t s) s
  | .imm n => .ok n

/-- The word that PUSHW and PUSHUW push (43_stack.md R306, R308). -/
def pushWord (f : PushWordForm) (s : State) : Res Word :=
  match f with
  | .pair rrs => readPair rrs s
  | .imm nn => .ok nn

/-- The effective address that PEA and PEAU push (43_stack.md R313). -/
def peaAddr (f : PeaForm) (s : State) : Res Word :=
  match f with
  | .short n rrx => do
    let x ← readPair rrx s
    .ok (x + n.signExtend 16)
  | .long nn rrx => do
    let x ← readPair rrx s
    .ok (x + nn)

/-- The target of CALL (46_control.md R376). -/
def callTarget (f : CallForm) (s : State) : Res Word :=
  match f with
  | .direct nn => .ok nn
  | .indirect rr => readPair rr s

/-- The segment and the target of JPS and CALLS (46_control.md R375, R377). -/
def farTarget (f : FarForm) (s : State) : Res (BitVec 6 × Word) :=
  match f with
  | .direct seg nn => .ok (seg, nn)
  | .indirect r rr => do
    let g ← readReg r s
    let t ← readWW rr s
    .ok (g.extractLsb' 0 6, t)

/-- The source bit of a two-bit instruction (45_boolean.md R351 to R355). -/
def sourceBit (src : BitSource) (b : BitVec 3) (v : Byte) : Bool :=
  match src with
  | .plain => v.getLsbD b.toNat
  | .complemented => !v.getLsbD b.toNat

end Sys2Proof.Machine
end

