-- ==== Sys2Proof/Machine/Alu1.lean ====
section
/-! DEFINITION. The one-operand arithmetic, logic, shift and rotate instructions (spec/42_alu1.md R260 to R278). -/

namespace Sys2Proof.Machine

/-- Reads the target byte, computes, writes it, then writes the flags (42_alu1.md R260). `g` computes the result
from the operand and the state the instruction starts in. -/
def unaryByte (g : State → Byte → ByteResult) (t : ByteTarget) (s : State) : Res State := do
  let a ← targetAddr t s
  let d ← readReg a s
  let r := g s d
  let s ← writeReg a r.value s
  .ok (s.setFlags r.flags)

/-- Reads the target pair, computes, writes it, then writes the flags (42_alu1.md R261). -/
def unaryWord (g : State → Word → WordResult) (rr : RegPair) (s : State) : Res State := do
  let d ← readPair rr s
  let r := g s d
  let s ← writePair rr r.value s
  .ok (s.setFlags r.flags)

/-- Writes 0 to the target byte (42_alu1.md R266). -/
def clearByte (t : ByteTarget) (s : State) : Res State := do
  let a ← targetAddr t s
  writeReg a 0 s

/-- INC (42_alu1.md R262). -/
def execInc (t : ByteTarget) (s : State) : Out :=
  Res.outcome (unaryByte (fun _ d => inc8 d) t s)

/-- DEC (42_alu1.md R263). -/
def execDec (t : ByteTarget) (s : State) : Out :=
  Res.outcome (unaryByte (fun _ d => dec8 d) t s)

/-- CPL (42_alu1.md R267). -/
def execCpl (t : ByteTarget) (s : State) : Out :=
  Res.outcome (unaryByte (fun _ d => cpl8 d) t s)

/-- SWAP (42_alu1.md R268). -/
def execSwap (t : ByteTarget) (s : State) : Out :=
  Res.outcome (unaryByte (fun s d => swap8 d (s.freeFlag .c) (s.freeFlag .v)) t s)

/-- DA (42_alu1.md R270). -/
def execDa (t : ByteTarget) (s : State) : Out :=
  Res.outcome (unaryByte (fun s d => da8 d (s.flag .c) (s.flag .d) (s.flag .h) (s.freeFlag .v)) t s)

/-- RLC (42_alu1.md R271). -/
def execRlc (t : ByteTarget) (s : State) : Out :=
  Res.outcome (unaryByte (fun s d => rlc8 d (s.flag .c)) t s)

/-- RRC (42_alu1.md R272). -/
def execRrc (t : ByteTarget) (s : State) : Out :=
  Res.outcome (unaryByte (fun s d => rrc8 d (s.flag .c)) t s)

/-- ROL (42_alu1.md R273). -/
def execRol (t : ByteTarget) (s : State) : Out :=
  Res.outcome (unaryByte (fun _ d => rol8 d) t s)

/-- ROR (42_alu1.md R274). -/
def execRor (t : ByteTarget) (s : State) : Out :=
  Res.outcome (unaryByte (fun _ d => ror8 d) t s)

/-- SRA (42_alu1.md R277). -/
def execSra (t : ByteTarget) (s : State) : Out :=
  Res.outcome (unaryByte (fun _ d => sra8 d) t s)

/-- CLR (42_alu1.md R266). -/
def execClr (t : ByteTarget) (s : State) : Out := Res.outcome (clearByte t s)

/-- INCW (42_alu1.md R264). -/
def execIncw (rr : RegPair) (s : State) : Out :=
  Res.outcome (unaryWord (fun _ d => inc16 d) rr s)

/-- DECW (42_alu1.md R265). -/
def execDecw (rr : RegPair) (s : State) : Out :=
  Res.outcome (unaryWord (fun _ d => dec16 d) rr s)

/-- RLCW (42_alu1.md R275). -/
def execRlcw (rr : RegPair) (s : State) : Out :=
  Res.outcome (unaryWord (fun s d => rlc16 d (s.flag .c) (s.freeFlag .z)) rr s)

/-- RRCW (42_alu1.md R276). -/
def execRrcw (rr : RegPair) (s : State) : Out :=
  Res.outcome (unaryWord (fun s d => rrc16 d (s.flag .c) (s.freeFlag .z)) rr s)

/-- SRAW (42_alu1.md R278). -/
def execSraw (rr : RegPair) (s : State) : Out :=
  Res.outcome (unaryWord (fun _ d => sra16 d) rr s)

end Sys2Proof.Machine
end

