-- ==== Sys2Proof/Machine/Alu2.lean ====
section
/-! DEFINITION. The two-operand arithmetic, logic, compare and test instructions (spec/41_alu2.md R200 to R229). -/

namespace Sys2Proof.Machine

/-- Stores the result, if the operation stores it (41_alu2.md R203 step 7). -/
def storeResult8 (op : AluOp) (l : Loc) (v : Byte) (s : State) : Res State :=
  if aluStores op then store8 l v s else .ok s

/-- Stores the result, if the operation stores it (41_alu2.md R203 step 7). -/
def storeResult16 (op : AluOp) (l : Loc) (v : Word) (s : State) : Res State :=
  if aluStores op then store16 l v s else .ok s

/-- One byte instruction, in the order of 41_alu2.md R203. -/
def aluByte (op : AluOp) (f : AluByteForm) (s : State) : Res State := do
  let s ← AluByteForm.pre f s
  let l ← AluByteForm.dst f s
  let v ← AluByteForm.src f s
  let d ← readDst8 l s
  let r := aluOp8 op d v (s.flag .c)
  let s ← storeResult8 op l r.value s
  AluByteForm.post f (s.setFlags r.flags)

/-- One word instruction, in the order of 41_alu2.md R203. -/
def aluWord (op : AluOp) (f : AluWordForm) (s : State) : Res State := do
  let s ← AluWordForm.pre f s
  let l ← AluWordForm.dst f s
  let v ← AluWordForm.src f s
  let d ← readDst16 l s
  let r := aluOp16 op d v (s.flag .c) (s.freeFlag .d) (s.freeFlag .h)
  let s ← storeResult16 op l r.value s
  AluWordForm.post f (s.setFlags r.flags)

/-- OR (41_alu2.md R215). -/
def execOr (f : AluByteForm) (s : State) : Out := Res.outcome (aluByte .or f s)

/-- AND (41_alu2.md R214). -/
def execAnd (f : AluByteForm) (s : State) : Out := Res.outcome (aluByte .and f s)

/-- SBC (41_alu2.md R213). -/
def execSbc (f : AluByteForm) (s : State) : Out := Res.outcome (aluByte .sbc f s)

/-- ADC (41_alu2.md R211). -/
def execAdc (f : AluByteForm) (s : State) : Out := Res.outcome (aluByte .adc f s)

/-- ADD (41_alu2.md R210). -/
def execAdd (f : AluByteForm) (s : State) : Out := Res.outcome (aluByte .add f s)

/-- SUB (41_alu2.md R212). -/
def execSub (f : AluByteForm) (s : State) : Out := Res.outcome (aluByte .sub f s)

/-- XOR (41_alu2.md R216). -/
def execXor (f : AluByteForm) (s : State) : Out := Res.outcome (aluByte .xor f s)

/-- TCM (41_alu2.md R219). -/
def execTcm (f : AluByteForm) (s : State) : Out := Res.outcome (aluByte .tcm f s)

/-- CP (41_alu2.md R217). -/
def execCp (f : AluByteForm) (s : State) : Out := Res.outcome (aluByte .cp f s)

/-- TM (41_alu2.md R218). -/
def execTm (f : AluByteForm) (s : State) : Out := Res.outcome (aluByte .tm f s)

/-- ORW (41_alu2.md R225). -/
def execOrw (f : AluWordForm) (s : State) : Out := Res.outcome (aluWord .or f s)

/-- ANDW (41_alu2.md R224). -/
def execAndw (f : AluWordForm) (s : State) : Out := Res.outcome (aluWord .and f s)

/-- SBCW (41_alu2.md R223). -/
def execSbcw (f : AluWordForm) (s : State) : Out := Res.outcome (aluWord .sbc f s)

/-- ADCW (41_alu2.md R221). -/
def execAdcw (f : AluWordForm) (s : State) : Out := Res.outcome (aluWord .adc f s)

/-- ADDW (41_alu2.md R220). -/
def execAddw (f : AluWordForm) (s : State) : Out := Res.outcome (aluWord .add f s)

/-- SUBW (41_alu2.md R222). -/
def execSubw (f : AluWordForm) (s : State) : Out := Res.outcome (aluWord .sub f s)

/-- XORW (41_alu2.md R226). -/
def execXorw (f : AluWordForm) (s : State) : Out := Res.outcome (aluWord .xor f s)

/-- TCMW (41_alu2.md R229). -/
def execTcmw (f : AluWordForm) (s : State) : Out := Res.outcome (aluWord .tcm f s)

/-- CPW (41_alu2.md R227). -/
def execCpw (f : AluWordForm) (s : State) : Out := Res.outcome (aluWord .cp f s)

/-- TMW (41_alu2.md R228). -/
def execTmw (f : AluWordForm) (s : State) : Out := Res.outcome (aluWord .tm f s)

end Sys2Proof.Machine
end

