-- ==== Sys2Proof/Machine/Boolean.lean ====
section
/-! DEFINITION. The bit instructions (spec/45_boolean.md R350 to R360). -/

namespace Sys2Proof.Machine

/-- A two-bit instruction: `g` computes the new destination bit from the old one and the source bit
(45_boolean.md R350). -/
def twoBit (g : Bool → Bool → Bool) (src : BitSource) (bd : BitVec 3) (rd : WReg) (bs : BitVec 3) (rs : WReg)
    (s : State) : Res State := do
  let v ← readW rs s
  let d ← readW rd s
  writeW rd (setBit d bd.toNat (g (d.getLsbD bd.toNat) (sourceBit src bs v))) s

/-- A one-bit instruction (45_boolean.md R356 to R358). -/
def oneBit (g : Bool → Bool) (b : BitVec 3) (rd : WReg) (s : State) : Res State := do
  let d ← readW rd s
  writeW rd (setBit d b.toNat (g (d.getLsbD b.toNat))) s

/-- The flags of BTSET, from the old value of the byte (45_boolean.md R354). -/
def btsetFlags (b : BitVec 3) (v : Byte) : FlagUpdate :=
  { z := some (!v.getLsbD b.toNat), s := some (b == 7 && v.getLsbD b.toNat), v := some false }

/-- Bit test and set (45_boolean.md R354). -/
def bitTestSet (f : BtsetForm) (s : State) : Res State :=
  match f with
  | .reg b rd => do
    let v ← readW rd s
    let s ← writeW rd (setBit v b.toNat true) s
    .ok (s.setFlags (btsetFlags b v))
  | .mem b rr => do
    let a ← readWW rr s
    let v := s.memByte .dest s.opSpace a
    let s := s.setMemByte s.opSpace a (setBit v b.toNat true)
    .ok (s.setFlags (btsetFlags b v))

/-- A jump when the tested bit has the value `want` (45_boolean.md R359, R360). -/
def bitJump (want : Bool) (b : BitVec 3) (rd : WReg) (n : Byte) (s : State) : Res State := do
  let v ← readW rd s
  .ok (if v.getLsbD b.toNat = want then { s with pc := s.pc + n.signExtend 16 } else s)

/-- BAND (45_boolean.md R351). -/
def execBand (src : BitSource) (bd : BitVec 3) (rd : WReg) (bs : BitVec 3) (rs : WReg) (s : State) : Out :=
  Res.outcome (twoBit (fun d v => d && v) src bd rd bs rs s)

/-- BOR (45_boolean.md R352). -/
def execBor (src : BitSource) (bd : BitVec 3) (rd : WReg) (bs : BitVec 3) (rs : WReg) (s : State) : Out :=
  Res.outcome (twoBit (fun d v => d || v) src bd rd bs rs s)

/-- BXOR (45_boolean.md R353). -/
def execBxor (src : BitSource) (bd : BitVec 3) (rd : WReg) (bs : BitVec 3) (rs : WReg) (s : State) : Out :=
  Res.outcome (twoBit (fun d v => d ^^ v) src bd rd bs rs s)

/-- BLD (45_boolean.md R355). -/
def execBld (src : BitSource) (bd : BitVec 3) (rd : WReg) (bs : BitVec 3) (rs : WReg) (s : State) : Out :=
  Res.outcome (twoBit (fun _ v => v) src bd rd bs rs s)

/-- BTSET (45_boolean.md R354). -/
def execBtset (f : BtsetForm) (s : State) : Out := Res.outcome (bitTestSet f s)

/-- BSET (45_boolean.md R356). -/
def execBset (b : BitVec 3) (rd : WReg) (s : State) : Out := Res.outcome (oneBit (fun _ => true) b rd s)

/-- BRES (45_boolean.md R357). -/
def execBres (b : BitVec 3) (rd : WReg) (s : State) : Out := Res.outcome (oneBit (fun _ => false) b rd s)

/-- BCPL (45_boolean.md R358). -/
def execBcpl (b : BitVec 3) (rd : WReg) (s : State) : Out := Res.outcome (oneBit (fun d => !d) b rd s)

/-- BTJF (45_boolean.md R359). -/
def execBtjf (b : BitVec 3) (rd : WReg) (n : Byte) (s : State) : Out := Res.outcome (bitJump false b rd n s)

/-- BTJT (45_boolean.md R360). -/
def execBtjt (b : BitVec 3) (rd : WReg) (n : Byte) (s : State) : Out := Res.outcome (bitJump true b rd n s)

end Sys2Proof.Machine
end

