-- ==== Sys2Proof/Machine/Control.lean ====
section
/-! DEFINITION. The program control instructions (spec/46_control.md R370 to R383). The pc an instruction starts
with is the address of the next instruction. -/

namespace Sys2Proof.Machine

/-- The relative target `(pc + sext8(N)) mod 2^16` (46_control.md R370). -/
def State.relTarget (s : State) (n : Byte) : Word := s.pc + n.signExtend 16

/-- `pc <- t`. -/
def State.jump (s : State) (t : Word) : State := { s with pc := t }

/-- JPcc (46_control.md R373). -/
def jumpIf (cc : BitVec 4) (nn : Word) (s : State) : State := if s.cond cc then s.jump nn else s

/-- JRcc (46_control.md R374). -/
def jumpRelIf (cc : BitVec 4) (n : Byte) (s : State) : State := if s.cond cc then s.jump (s.relTarget n) else s

/-- The indirect jump: the pair holds the target (46_control.md R371). -/
def jumpPair (rr : RegPair) (s : State) : Res State := do
  let t ← readPair rr s
  .ok (s.jump t)

/-- The jump to another segment (46_control.md R375). -/
def jumpFar (f : FarForm) (s : State) : Res State := do
  let g ← farTarget f s
  .ok { s.jump g.2 with csr := g.1 }

/-- The call: the target is read before the push (46_control.md R376). -/
def callNear (f : CallForm) (s : State) : Res State := do
  let t ← callTarget f s
  let s ← push16 .system s.pc s
  .ok (s.jump t)

/-- The call to another segment: segment and target are read before the pushes (46_control.md R377). -/
def callFar (f : FarForm) (s : State) : Res State := do
  let g ← farTarget f s
  let s ← push16 .system s.pc s
  let s ← push8 .system (s.csr.zeroExtend 8) s
  .ok { s.jump g.2 with csr := g.1 }

/-- The return from a subroutine (46_control.md R378). -/
def returnNear (s : State) : Res State := do
  let (t, s) ← pop16 .system s
  .ok (s.jump t)

/-- The return from a far subroutine (46_control.md R379). -/
def returnFar (s : State) : Res State := do
  let (c, s) ← pop8 .system s
  let s := { s with csr := c.extractLsb' 0 6 }
  let (t, s) ← pop16 .system s
  .ok (s.jump t)

/-- The register address resolves to group E or F, R224 to R255 (70_reset_and_hazards.md R500). -/
def State.inGroupEF (s : State) (a : Byte) : Bool := decide (224 ≤ (s.addr a).toNat)

/-- DJNZ: on a counter in group E or F the decrement is performed and the branch is free (46_control.md R380,
70_reset_and_hazards.md R500, log entry 6). -/
def decJump (r : WReg) (n : Byte) (s : State) : Res State := do
  let v ← readW r s
  let free := s.inGroupEF (wregAddr r)
  let s ← writeW r (v - 1) s
  let taken := if free then Config.freeBranch s.fresh else v - 1 != 0
  .ok (if taken then s.jump (s.relTarget n) else s)

/-- DWJNZ: the same on a pair (46_control.md R381, 70_reset_and_hazards.md R500, log entry 6). -/
def decJumpWord (rr : RegPair) (n : Byte) (s : State) : Res State := do
  let v ← readPair rr s
  let free := s.inGroupEF rr
  let s ← writePair rr (v - 1) s
  let taken := if free then Config.freeBranch s.fresh else v - 1 != 0
  .ok (if taken then s.jump (s.relTarget n) else s)

/-- CPJFI (`whenEqual` false) and CPJTI (`whenEqual` true): compare and jump, otherwise post-increment
(46_control.md R382, R383). -/
def compareJump (whenEqual : Bool) (rd : WReg) (rrs : WPair) (n : Byte) (s : State) : Res State := do
  let a ← readWW rrs s
  let m := s.srcByte a
  let d ← readW rd s
  if (d == m) = whenEqual then .ok (s.jump (s.relTarget n)) else writeWW rrs (a + 1) s

/-- JPF (46_control.md R373, 10_state.md R33). -/
def execJpf (nn : Word) (s : State) : Out := .next (jumpIf 0x0 nn s)

/-- JPLT (46_control.md R373, 10_state.md R33). -/
def execJplt (nn : Word) (s : State) : Out := .next (jumpIf 0x1 nn s)

/-- JPLE (46_control.md R373, 10_state.md R33). -/
def execJple (nn : Word) (s : State) : Out := .next (jumpIf 0x2 nn s)

/-- JPULE (46_control.md R373, 10_state.md R33). -/
def execJpule (nn : Word) (s : State) : Out := .next (jumpIf 0x3 nn s)

/-- JPOV (46_control.md R373, 10_state.md R33). -/
def execJpov (nn : Word) (s : State) : Out := .next (jumpIf 0x4 nn s)

/-- JPMI (46_control.md R373, 10_state.md R33). -/
def execJpmi (nn : Word) (s : State) : Out := .next (jumpIf 0x5 nn s)

/-- JPEQ (46_control.md R373, 10_state.md R33). -/
def execJpeq (nn : Word) (s : State) : Out := .next (jumpIf 0x6 nn s)

/-- JPULT (46_control.md R373, 10_state.md R33). -/
def execJpult (nn : Word) (s : State) : Out := .next (jumpIf 0x7 nn s)

/-- JPT (46_control.md R373, 10_state.md R33). -/
def execJpt (nn : Word) (s : State) : Out := .next (jumpIf 0x8 nn s)

/-- JPGE (46_control.md R373, 10_state.md R33). -/
def execJpge (nn : Word) (s : State) : Out := .next (jumpIf 0x9 nn s)

/-- JPGT (46_control.md R373, 10_state.md R33). -/
def execJpgt (nn : Word) (s : State) : Out := .next (jumpIf 0xA nn s)

/-- JPUGT (46_control.md R373, 10_state.md R33). -/
def execJpugt (nn : Word) (s : State) : Out := .next (jumpIf 0xB nn s)

/-- JPNOV (46_control.md R373, 10_state.md R33). -/
def execJpnov (nn : Word) (s : State) : Out := .next (jumpIf 0xC nn s)

/-- JPPL (46_control.md R373, 10_state.md R33). -/
def execJppl (nn : Word) (s : State) : Out := .next (jumpIf 0xD nn s)

/-- JPNE (46_control.md R373, 10_state.md R33). -/
def execJpne (nn : Word) (s : State) : Out := .next (jumpIf 0xE nn s)

/-- JPUGE (46_control.md R373, 10_state.md R33). -/
def execJpuge (nn : Word) (s : State) : Out := .next (jumpIf 0xF nn s)

/-- JRF (46_control.md R374, 10_state.md R33). -/
def execJrf (n : Byte) (s : State) : Out := .next (jumpRelIf 0x0 n s)

/-- JRLT (46_control.md R374, 10_state.md R33). -/
def execJrlt (n : Byte) (s : State) : Out := .next (jumpRelIf 0x1 n s)

/-- JRLE (46_control.md R374, 10_state.md R33). -/
def execJrle (n : Byte) (s : State) : Out := .next (jumpRelIf 0x2 n s)

/-- JRULE (46_control.md R374, 10_state.md R33). -/
def execJrule (n : Byte) (s : State) : Out := .next (jumpRelIf 0x3 n s)

/-- JROV (46_control.md R374, 10_state.md R33). -/
def execJrov (n : Byte) (s : State) : Out := .next (jumpRelIf 0x4 n s)

/-- JRMI (46_control.md R374, 10_state.md R33). -/
def execJrmi (n : Byte) (s : State) : Out := .next (jumpRelIf 0x5 n s)

/-- JREQ (46_control.md R374, 10_state.md R33). -/
def execJreq (n : Byte) (s : State) : Out := .next (jumpRelIf 0x6 n s)

/-- JRULT (46_control.md R374, 10_state.md R33). -/
def execJrult (n : Byte) (s : State) : Out := .next (jumpRelIf 0x7 n s)

/-- JRT (46_control.md R374, 10_state.md R33). -/
def execJrt (n : Byte) (s : State) : Out := .next (jumpRelIf 0x8 n s)

/-- JRGE (46_control.md R374, 10_state.md R33). -/
def execJrge (n : Byte) (s : State) : Out := .next (jumpRelIf 0x9 n s)

/-- JRGT (46_control.md R374, 10_state.md R33). -/
def execJrgt (n : Byte) (s : State) : Out := .next (jumpRelIf 0xA n s)

/-- JRUGT (46_control.md R374, 10_state.md R33). -/
def execJrugt (n : Byte) (s : State) : Out := .next (jumpRelIf 0xB n s)

/-- JRNOV (46_control.md R374, 10_state.md R33). -/
def execJrnov (n : Byte) (s : State) : Out := .next (jumpRelIf 0xC n s)

/-- JRPL (46_control.md R374, 10_state.md R33). -/
def execJrpl (n : Byte) (s : State) : Out := .next (jumpRelIf 0xD n s)

/-- JRNE (46_control.md R374, 10_state.md R33). -/
def execJrne (n : Byte) (s : State) : Out := .next (jumpRelIf 0xE n s)

/-- JRUGE (46_control.md R374, 10_state.md R33). -/
def execJruge (n : Byte) (s : State) : Out := .next (jumpRelIf 0xF n s)

/-- JP (RR) (46_control.md R371). -/
def execJp (rr : RegPair) (s : State) : Out := Res.outcome (jumpPair rr s)

/-- JPS (46_control.md R375). -/
def execJps (f : FarForm) (s : State) : Out := Res.outcome (jumpFar f s)

/-- CALL (46_control.md R376). -/
def execCall (f : CallForm) (s : State) : Out := Res.outcome (callNear f s)

/-- CALLS (46_control.md R377). -/
def execCalls (f : FarForm) (s : State) : Out := Res.outcome (callFar f s)

/-- RET (46_control.md R378). -/
def execRet (s : State) : Out := Res.outcome (returnNear s)

/-- RETS (46_control.md R379). -/
def execRets (s : State) : Out := Res.outcome (returnFar s)

/-- IRET (46_control.md R372). -/
def execIret (s : State) : Out := Res.outcome (returnFromInterrupt s)

/-- DJNZ (46_control.md R380). -/
def execDjnz (r : WReg) (n : Byte) (s : State) : Out := Res.outcome (decJump r n s)

/-- DWJNZ (46_control.md R381). -/
def execDwjnz (rr : RegPair) (n : Byte) (s : State) : Out := Res.outcome (decJumpWord rr n s)

/-- CPJFI (46_control.md R382). -/
def execCpjfi (rd : WReg) (rrs : WPair) (n : Byte) (s : State) : Out := Res.outcome (compareJump false rd rrs n s)

/-- CPJTI (46_control.md R383). -/
def execCpjti (rd : WReg) (rrs : WPair) (n : Byte) (s : State) : Out := Res.outcome (compareJump true rd rrs n s)

end Sys2Proof.Machine
end

