-- ==== Sys2Proof/Machine/Load.lean ====
section
/-! DEFINITION. The load instructions (spec/40_load.md R140 to R199). -/

namespace Sys2Proof.Machine

/-- `dst <- src` for a byte: pre-decrement, locations, store, post-increments (40_load.md R140). -/
def loadByte (f : LdForm) (s : State) : Res State := do
  let s ← LdForm.pre f s
  let l ← LdForm.dst f s
  let v ← LdForm.src f s
  let s ← store8 l v s
  LdForm.post f s

/-- `dst <- src` for a word (40_load.md R140). -/
def loadWord (f : LdwForm) (s : State) : Res State := do
  let s ← LdwForm.pre f s
  let l ← LdwForm.dst f s
  let v ← LdwForm.src f s
  let s ← store16 l v s
  LdwForm.post f s

/-- The copy of a byte from space `sps` to space `spd` (40_load.md R171). -/
def copyByte (spd sps : Space) (rrd rrs : WPair) (s : State) : Res State := do
  let a ← readWW rrs s
  let d ← readWW rrd s
  let s := s.setMemByte spd d (s.memByte .source sps a)
  let s ← bumpWW rrd 1 s
  bumpWW rrs 1 s

/-- LD (40_load.md R141 to R170). -/
def execLd (f : LdForm) (s : State) : Out := Res.outcome (loadByte f s)

/-- LDW (40_load.md R176 to R199). -/
def execLdw (f : LdwForm) (s : State) : Out := Res.outcome (loadWord f s)

/-- LDPP (40_load.md R172). -/
def execLdpp (rrd rrs : WPair) (s : State) : Out := Res.outcome (copyByte .prog .prog rrd rrs s)

/-- LDDP: to data memory from program memory (40_load.md R173). -/
def execLddp (rrd rrs : WPair) (s : State) : Out := Res.outcome (copyByte .data .prog rrd rrs s)

/-- LDPD: to program memory from data memory (40_load.md R174). -/
def execLdpd (rrd rrs : WPair) (s : State) : Out := Res.outcome (copyByte .prog .data rrd rrs s)

/-- LDDD (40_load.md R175). -/
def execLddd (rrd rrs : WPair) (s : State) : Out := Res.outcome (copyByte .data .data rrd rrs s)

end Sys2Proof.Machine
end

