-- ==== Sys2Proof/Machine/Misc.lean ====
section
/-! DEFINITION. The miscellaneous instructions (spec/47_misc.md R420 to R437). -/

namespace Sys2Proof.Machine

/-- The exchange of two registers: both reads come before both writes (47_misc.md R425). The second write goes
through a register pointer or page pointer that the first one wrote. DESIGN CHOICE, log entry 36. -/
def exchange (rd rs : Reg) (s : State) : Res State := do
  let a ← readReg rd s
  let b ← readReg rs s
  let s ← writeReg rd b s
  writeReg rs a s

/-- The sign extension of the low register of a pair into the high one (47_misc.md R426). -/
def signExtendPair (rr : RegPair) (s : State) : Res State := do
  let l ← readReg (rr + 1) s
  writeReg rr (if l.msb then 0xFF else 0x00) s

/-- The outcome of a byte pattern that Table 15 names and nothing describes, from the bytes of the instruction
that the pc has passed (47_misc.md R437, 92_eei_decisions.md D18). -/
def undescribed (bytes : List Byte) (s : State) : Out :=
  .refused (.illegalEncoding (s.pc - BitVec.ofNat 16 bytes.length) bytes)

/-- SRP: RP1 stays (47_misc.md R421, log entry 33). -/
def execSrp (g : BitVec 5) (s : State) : Out := .next { s with rp0 := g, twin := false }

/-- SRP0 (47_misc.md R422). -/
def execSrp0 (g : BitVec 5) (s : State) : Out := .next { s with rp0 := g, twin := true }

/-- SRP1 (47_misc.md R423). -/
def execSrp1 (g : BitVec 5) (s : State) : Out := .next { s with rp1 := g, twin := true }

/-- SPP (47_misc.md R424). -/
def execSpp (pg : BitVec 6) (s : State) : Out := .next { s with ppr := pg ++ 0#2 }

/-- XCH (47_misc.md R425). -/
def execXch (rd rs : Reg) (s : State) : Out := Res.outcome (exchange rd rs s)

/-- EXT (47_misc.md R426). -/
def execExt (rr : RegPair) (s : State) : Out := Res.outcome (signExtendPair rr s)

/-- EI (47_misc.md R427). -/
def execEi (s : State) : Out := .next (s.setIen true)

/-- DI (47_misc.md R428). -/
def execDi (s : State) : Out := .next (s.setIen false)

/-- SCF (47_misc.md R429). -/
def execScf (s : State) : Out := .next (s.setFlags { c := some true })

/-- RCF (47_misc.md R430). -/
def execRcf (s : State) : Out := .next (s.setFlags { c := some false })

/-- CCF (47_misc.md R431). -/
def execCcf (s : State) : Out := .next (s.setFlags { c := some (!s.flag .c) })

/-- SPM (47_misc.md R432). -/
def execSpm (s : State) : Out := .next { s with flagr := setBit s.flagr 0 false }

/-- SDM (47_misc.md R433). -/
def execSdm (s : State) : Out := .next { s with flagr := setBit s.flagr 0 true }

/-- NOP (47_misc.md R434). -/
def execNop (s : State) : Out := .next s

/-- WFI (47_misc.md R435). -/
def execWfi (s : State) : Out := .next { s with runState := .waiting }

/-- HALT (47_misc.md R436). -/
def execHalt (s : State) : Out := .next { s with runState := .halted }

/-- ETRAP: the spec gives it no effect and stops with IllegalEncoding (47_misc.md R437). -/
def execEtrap (s : State) : Out := undescribed [0xCE] s

/-- ERET: the spec gives it no effect and stops with IllegalEncoding (47_misc.md R437). -/
def execEret (s : State) : Out := undescribed [0xEF, 0x31] s

end Sys2Proof.Machine
end

