-- ==== Sys2Proof/Machine/MulDiv.lean ====
section
/-! DEFINITION. The multiply and divide instructions (spec/44_muldiv.md R340 to R342). -/

namespace Sys2Proof.Machine

/-- The multiplication of the low byte of a pair by a register (44_muldiv.md R340). -/
def multiply (rrd : WPair) (rs : WReg) (s : State) : Res State := do
  let a ← readW (rrd + 1) s
  let b ← readW rs s
  let r := mul8 a b (s.freeFlag .h)
  let s ← writeWW rrd r.value s
  .ok (s.setFlags r.flags)

/-- The flags of a division that is not carried out (44_muldiv.md R341). -/
def divOverflowFlags (s : State) : FlagUpdate :=
  { c := some false, z := s.freeFlag .z, s := s.freeFlag .s, v := s.freeFlag .v, d := some true
    h := s.freeFlag .h }

/-- The flags of a division with quotient `q` and remainder `m` (44_muldiv.md R341). -/
def divFlags (q m : Nat) (s : State) : FlagUpdate :=
  { c := some true, z := some (decide (q = 0)), s := some (decide (m = 0)), v := s.freeFlag .v, d := some true
    h := s.freeFlag .h }

/-- The division of a pair by a register: a zero divisor traps, a quotient above 255 is not computed
(44_muldiv.md R341). -/
def divide (rrd : WPair) (rs : WReg) (s : State) : Res State := do
  let n ← readWW rrd s
  let d ← readW rs s
  if d = 0 then takeDivideByZero s
  else if d.toNat ≤ n.hi.toNat then .ok (s.setFlags (divOverflowFlags s))
  else do
    let q := n.toNat / d.toNat
    let m := n.toNat % d.toNat
    let u := divFlags q m s
    let s ← writeW rrd (BitVec.ofNat 8 m) s
    let s ← writeW (rrd + 1) (BitVec.ofNat 8 q) s
    .ok (s.setFlags u)

/-- The flags of DIVWS: C and D are unaffected (44_muldiv.md R342). -/
def divwsFlags : FlagUpdate :=
  { z := some true, s := some false, v := some false, h := some false }

/-- One step of a 32-bit by 16-bit division; what it does to the two pairs is open but for the contract of sixteen
steps (44_muldiv.md R342, log entry 9). -/
def divideStep (rrh rrl : WPair) (rrs : RegPair) (s : State) : Res State := do
  let h ← readWW rrh s
  let l ← readWW rrl s
  let v ← readPair rrs s
  let r := Config.divwsStep h l v (s.flag .c) s.divwsHidden
  let s ← writeWW rrh r.1 s
  let s ← writeWW rrl r.2.1 s
  .ok { s.setFlags divwsFlags with divwsHidden := r.2.2 }

/-- MUL (44_muldiv.md R340). -/
def execMul (rrd : WPair) (rs : WReg) (s : State) : Out := Res.outcome (multiply rrd rs s)

/-- DIV (44_muldiv.md R341). -/
def execDiv (rrd : WPair) (rs : WReg) (s : State) : Out := Res.outcome (divide rrd rs s)

/-- DIVWS (44_muldiv.md R342). -/
def execDivws (rrh rrl : WPair) (rrs : RegPair) (s : State) : Out := Res.outcome (divideStep rrh rrl rrs s)

end Sys2Proof.Machine
end

