-- ==== Sys2Proof/Machine/Stack.lean ====
section
/-! DEFINITION. The stack instructions (spec/43_stack.md R304 to R318). A source operand is read before the pointer
is updated and a popped destination is written after it (R304). -/

namespace Sys2Proof.Machine

/-- A byte push (43_stack.md R305, R307). -/
def pushByteOn (k : Stack) (f : PushForm) (s : State) : Res State := do
  let v ← pushByte f s
  push8 k v s

/-- A word push (43_stack.md R306, R308). -/
def pushWordOn (k : Stack) (f : PushWordForm) (s : State) : Res State := do
  let w ← pushWord f s
  push16 k w s

/-- A byte pop; the pointer register of the indirect form is read before the pop (43_stack.md R309, R311). -/
def popByteFrom (k : Stack) (t : ByteTarget) (s : State) : Res State := do
  let a ← targetAddr t s
  let (v, s) ← pop8 k s
  writeReg a v s

/-- A word pop (43_stack.md R310, R312). -/
def popWordFrom (k : Stack) (rr : RegPair) (s : State) : Res State := do
  let (w, s) ← pop16 k s
  writePair rr w s

/-- A push of an effective address (43_stack.md R313, R314). -/
def pushAddrOn (k : Stack) (f : PeaForm) (s : State) : Res State := do
  let ea ← peaAddr f s
  push16 k ea s

/-- LINK and LINKU (43_stack.md R315, R316). With the stack in the register file only the low register of the
pair takes part, and the high byte of the pointer becomes a free value (log entry 7). -/
def linkOn (k : Stack) (rr : RegPair) (n : Byte) (s : State) : Res State :=
  if s.inRegfile k then do
    let v ← readReg (rr + 1) s
    let s ← push8 k v s
    let s ← writeReg (rr + 1) (s.spLow k) s
    let s := s.setSpLow k (s.spLow k - n)
    .ok (s.setSpHigh k (Config.freeStackHigh s.fresh))
  else do
    let v ← readPair rr s
    let s ← push16 k v s
    let s ← writePair rr (s.sp k) s
    .ok (s.setSp k (s.sp k - n.zeroExtend 16))

/-- UNLINK and UNLINKU (43_stack.md R317, R318). -/
def unlinkFrom (k : Stack) (rr : RegPair) (s : State) : Res State :=
  if s.inRegfile k then do
    let l ← readReg (rr + 1) s
    let (v, s) ← pop8 k (s.setSpLow k l)
    let s ← writeReg (rr + 1) v s
    .ok (s.setSpHigh k (Config.freeStackHigh s.fresh))
  else do
    let p ← readPair rr s
    let (w, s) ← pop16 k (s.setSp k p)
    writePair rr w s

/-- PUSH (43_stack.md R305). -/
def execPush (f : PushForm) (s : State) : Out := Res.outcome (pushByteOn .system f s)

/-- PUSHU (43_stack.md R307). -/
def execPushu (f : PushForm) (s : State) : Out := Res.outcome (pushByteOn .user f s)

/-- PUSHW (43_stack.md R306). -/
def execPushw (f : PushWordForm) (s : State) : Out := Res.outcome (pushWordOn .system f s)

/-- PUSHUW (43_stack.md R308). -/
def execPushuw (f : PushWordForm) (s : State) : Out := Res.outcome (pushWordOn .user f s)

/-- POP (43_stack.md R309). -/
def execPop (t : ByteTarget) (s : State) : Out := Res.outcome (popByteFrom .system t s)

/-- POPU (43_stack.md R311). -/
def execPopu (t : ByteTarget) (s : State) : Out := Res.outcome (popByteFrom .user t s)

/-- POPW (43_stack.md R310). -/
def execPopw (rr : RegPair) (s : State) : Out := Res.outcome (popWordFrom .system rr s)

/-- POPUW (43_stack.md R312). -/
def execPopuw (rr : RegPair) (s : State) : Out := Res.outcome (popWordFrom .user rr s)

/-- PEA (43_stack.md R313). -/
def execPea (f : PeaForm) (s : State) : Out := Res.outcome (pushAddrOn .system f s)

/-- PEAU (43_stack.md R314). -/
def execPeau (f : PeaForm) (s : State) : Out := Res.outcome (pushAddrOn .user f s)

/-- LINK (43_stack.md R315). -/
def execLink (rr : RegPair) (n : Byte) (s : State) : Out := Res.outcome (linkOn .system rr n s)

/-- LINKU (43_stack.md R316). -/
def execLinku (rr : RegPair) (n : Byte) (s : State) : Out := Res.outcome (linkOn .user rr n s)

/-- UNLINK (43_stack.md R317). -/
def execUnlink (rr : RegPair) (s : State) : Out := Res.outcome (unlinkFrom .system rr s)

/-- UNLINKU (43_stack.md R318). -/
def execUnlinku (rr : RegPair) (s : State) : Out := Res.outcome (unlinkFrom .user rr s)

end Sys2Proof.Machine
end

