-- ==== Sys2Proof/Machine/Dispatch.lean ====
section
/-! DEFINITION. The meaning of each instruction: one arm per constructor of Instr. -/

namespace Sys2Proof.Machine

def exec (i : Instr) (s : State) : Host.Outcome State Fault Refusal :=
  match i with
  | .or f => Sys2Proof.Machine.execOr f s
  | .and f => Sys2Proof.Machine.execAnd f s
  | .sbc f => Sys2Proof.Machine.execSbc f s
  | .adc f => Sys2Proof.Machine.execAdc f s
  | .add f => Sys2Proof.Machine.execAdd f s
  | .sub f => Sys2Proof.Machine.execSub f s
  | .xor f => Sys2Proof.Machine.execXor f s
  | .tcm f => Sys2Proof.Machine.execTcm f s
  | .cp f => Sys2Proof.Machine.execCp f s
  | .tm f => Sys2Proof.Machine.execTm f s
  | .orw f => Sys2Proof.Machine.execOrw f s
  | .andw f => Sys2Proof.Machine.execAndw f s
  | .sbcw f => Sys2Proof.Machine.execSbcw f s
  | .adcw f => Sys2Proof.Machine.execAdcw f s
  | .addw f => Sys2Proof.Machine.execAddw f s
  | .subw f => Sys2Proof.Machine.execSubw f s
  | .xorw f => Sys2Proof.Machine.execXorw f s
  | .tcmw f => Sys2Proof.Machine.execTcmw f s
  | .cpw f => Sys2Proof.Machine.execCpw f s
  | .tmw f => Sys2Proof.Machine.execTmw f s
  | .ld f => Sys2Proof.Machine.execLd f s
  | .ldw f => Sys2Proof.Machine.execLdw f s
  | .ldpp rrd rrs => Sys2Proof.Machine.execLdpp rrd rrs s
  | .lddp rrd rrs => Sys2Proof.Machine.execLddp rrd rrs s
  | .ldpd rrd rrs => Sys2Proof.Machine.execLdpd rrd rrs s
  | .lddd rrd rrs => Sys2Proof.Machine.execLddd rrd rrs s
  | .inc t => Sys2Proof.Machine.execInc t s
  | .dec t => Sys2Proof.Machine.execDec t s
  | .clr t => Sys2Proof.Machine.execClr t s
  | .cpl t => Sys2Proof.Machine.execCpl t s
  | .swap t => Sys2Proof.Machine.execSwap t s
  | .da t => Sys2Proof.Machine.execDa t s
  | .rlc t => Sys2Proof.Machine.execRlc t s
  | .rrc t => Sys2Proof.Machine.execRrc t s
  | .rol t => Sys2Proof.Machine.execRol t s
  | .ror t => Sys2Proof.Machine.execRor t s
  | .sra t => Sys2Proof.Machine.execSra t s
  | .incw rr => Sys2Proof.Machine.execIncw rr s
  | .decw rr => Sys2Proof.Machine.execDecw rr s
  | .rlcw rr => Sys2Proof.Machine.execRlcw rr s
  | .rrcw rr => Sys2Proof.Machine.execRrcw rr s
  | .sraw rr => Sys2Proof.Machine.execSraw rr s
  | .push f => Sys2Proof.Machine.execPush f s
  | .pushu f => Sys2Proof.Machine.execPushu f s
  | .pushw f => Sys2Proof.Machine.execPushw f s
  | .pushuw f => Sys2Proof.Machine.execPushuw f s
  | .pop t => Sys2Proof.Machine.execPop t s
  | .popu t => Sys2Proof.Machine.execPopu t s
  | .popw rr => Sys2Proof.Machine.execPopw rr s
  | .popuw rr => Sys2Proof.Machine.execPopuw rr s
  | .pea f => Sys2Proof.Machine.execPea f s
  | .peau f => Sys2Proof.Machine.execPeau f s
  | .link rr n => Sys2Proof.Machine.execLink rr n s
  | .linku rr n => Sys2Proof.Machine.execLinku rr n s
  | .unlink rr => Sys2Proof.Machine.execUnlink rr s
  | .unlinku rr => Sys2Proof.Machine.execUnlinku rr s
  | .mul rrd rs => Sys2Proof.Machine.execMul rrd rs s
  | .div rrd rs => Sys2Proof.Machine.execDiv rrd rs s
  | .divws rrh rrl rrs => Sys2Proof.Machine.execDivws rrh rrl rrs s
  | .band src bd rd bs rs => Sys2Proof.Machine.execBand src bd rd bs rs s
  | .bor src bd rd bs rs => Sys2Proof.Machine.execBor src bd rd bs rs s
  | .bxor src bd rd bs rs => Sys2Proof.Machine.execBxor src bd rd bs rs s
  | .bld src bd rd bs rs => Sys2Proof.Machine.execBld src bd rd bs rs s
  | .btset f => Sys2Proof.Machine.execBtset f s
  | .bset b rd => Sys2Proof.Machine.execBset b rd s
  | .bres b rd => Sys2Proof.Machine.execBres b rd s
  | .bcpl b rd => Sys2Proof.Machine.execBcpl b rd s
  | .btjf b rd n => Sys2Proof.Machine.execBtjf b rd n s
  | .btjt b rd n => Sys2Proof.Machine.execBtjt b rd n s
  | .jpf nn => Sys2Proof.Machine.execJpf nn s
  | .jplt nn => Sys2Proof.Machine.execJplt nn s
  | .jple nn => Sys2Proof.Machine.execJple nn s
  | .jpule nn => Sys2Proof.Machine.execJpule nn s
  | .jpov nn => Sys2Proof.Machine.execJpov nn s
  | .jpmi nn => Sys2Proof.Machine.execJpmi nn s
  | .jpeq nn => Sys2Proof.Machine.execJpeq nn s
  | .jpult nn => Sys2Proof.Machine.execJpult nn s
  | .jpt nn => Sys2Proof.Machine.execJpt nn s
  | .jpge nn => Sys2Proof.Machine.execJpge nn s
  | .jpgt nn => Sys2Proof.Machine.execJpgt nn s
  | .jpugt nn => Sys2Proof.Machine.execJpugt nn s
  | .jpnov nn => Sys2Proof.Machine.execJpnov nn s
  | .jppl nn => Sys2Proof.Machine.execJppl nn s
  | .jpne nn => Sys2Proof.Machine.execJpne nn s
  | .jpuge nn => Sys2Proof.Machine.execJpuge nn s
  | .jrf n => Sys2Proof.Machine.execJrf n s
  | .jrlt n => Sys2Proof.Machine.execJrlt n s
  | .jrle n => Sys2Proof.Machine.execJrle n s
  | .jrule n => Sys2Proof.Machine.execJrule n s
  | .jrov n => Sys2Proof.Machine.execJrov n s
  | .jrmi n => Sys2Proof.Machine.execJrmi n s
  | .jreq n => Sys2Proof.Machine.execJreq n s
  | .jrult n => Sys2Proof.Machine.execJrult n s
  | .jrt n => Sys2Proof.Machine.execJrt n s
  | .jrge n => Sys2Proof.Machine.execJrge n s
  | .jrgt n => Sys2Proof.Machine.execJrgt n s
  | .jrugt n => Sys2Proof.Machine.execJrugt n s
  | .jrnov n => Sys2Proof.Machine.execJrnov n s
  | .jrpl n => Sys2Proof.Machine.execJrpl n s
  | .jrne n => Sys2Proof.Machine.execJrne n s
  | .jruge n => Sys2Proof.Machine.execJruge n s
  | .jp rr => Sys2Proof.Machine.execJp rr s
  | .jps f => Sys2Proof.Machine.execJps f s
  | .call f => Sys2Proof.Machine.execCall f s
  | .calls f => Sys2Proof.Machine.execCalls f s
  | .ret => Sys2Proof.Machine.execRet s
  | .rets => Sys2Proof.Machine.execRets s
  | .iret => Sys2Proof.Machine.execIret s
  | .djnz r n => Sys2Proof.Machine.execDjnz r n s
  | .dwjnz rr n => Sys2Proof.Machine.execDwjnz rr n s
  | .cpjfi rd rrs n => Sys2Proof.Machine.execCpjfi rd rrs n s
  | .cpjti rd rrs n => Sys2Proof.Machine.execCpjti rd rrs n s
  | .srp g => Sys2Proof.Machine.execSrp g s
  | .srp0 g => Sys2Proof.Machine.execSrp0 g s
  | .srp1 g => Sys2Proof.Machine.execSrp1 g s
  | .spp pg => Sys2Proof.Machine.execSpp pg s
  | .xch rd rs => Sys2Proof.Machine.execXch rd rs s
  | .ext rr => Sys2Proof.Machine.execExt rr s
  | .ei => Sys2Proof.Machine.execEi s
  | .di => Sys2Proof.Machine.execDi s
  | .scf => Sys2Proof.Machine.execScf s
  | .rcf => Sys2Proof.Machine.execRcf s
  | .ccf => Sys2Proof.Machine.execCcf s
  | .spm => Sys2Proof.Machine.execSpm s
  | .sdm => Sys2Proof.Machine.execSdm s
  | .nop => Sys2Proof.Machine.execNop s
  | .wfi => Sys2Proof.Machine.execWfi s
  | .halt => Sys2Proof.Machine.execHalt s
  | .etrap => Sys2Proof.Machine.execEtrap s
  | .eret => Sys2Proof.Machine.execEret s

end Sys2Proof.Machine
end

