-- ==== Sys2Proof/Machine/Fetch.lean ====
section
/-! DEFINITION. Instruction boundaries and the fetch (spec/30_encoding.md R91, R103, spec/60_exceptions.md R455 to
R464, spec/70_reset_and_hazards.md R490). -/

namespace Sys2Proof.Machine

/-- The boundary at which the environment does nothing. -/
def Boundary.quiet : Boundary := { encsr := none, reset := none, irq := none }

/-- What the environment does at the next boundary: nothing after its last entry. -/
def State.boundary (s : State) : Boundary :=
  match s.inputs with
  | [] => Boundary.quiet
  | b :: _ => b

/-- The state once the environment's answer is taken: the entry is used up, ENCSR is set, and nothing is stored yet
of what comes next (10_state.md R40, log entries 14, 15 and 16). -/
def State.answered (s : State) : State :=
  { s with inputs := s.inputs.tail, encsr := s.boundary.encsr.getD s.encsr, stores := [] }

/-- A request is accepted: NMI always, a maskable one when CICR bit 4 is 1 (60_exceptions.md R456). -/
def State.accepts (s : State) (q : IrqRequest) : Bool := q.nmi || s.ien

/-- The request that is taken at this boundary: none while halted (60_exceptions.md R456, R463, R464). -/
def State.taken (s : State) (irq : Option IrqRequest) : Option IrqRequest :=
  match irq with
  | none => none
  | some q => if s.runState ≠ .halted ∧ s.accepts q then some q else none

/-- `n` instruction bytes from an address on, from program memory through CSR (30_encoding.md R91). -/
def State.fetchBytes (s : State) (a : Word) (n : Nat) : List Byte :=
  match n with
  | 0 => []
  | n + 1 => s.memByte .fetch .prog a :: State.fetchBytes s (a + 1) n

/-- The bytes from which the next instruction is decoded (log entry 32). -/
def State.fetchWindow (s : State) : List Byte := s.fetchBytes s.pc Config.maxInstrBytes

/-- The state in which an instruction of `n` bytes executes: the pc addresses the next instruction, and the
counter of free values has advanced (10_state.md R30, log entry 29). -/
def State.advance (s : State) (n : Nat) : State :=
  { s with pc := s.pc + BitVec.ofNat 16 n, fresh := s.fresh + 1 }

/-- Fetches, decodes and executes one instruction (30_encoding.md R103). -/
def runInstruction (s : State) : Out :=
  match decode s.fetchWindow with
  | .ok (i, rest) => exec i (s.advance (Config.maxInstrBytes - rest.length))
  | .error _ => .refused (.illegalEncoding s.pc s.fetchWindow)

/-- What follows a boundary without a reset: an accepted interrupt, else the next instruction of a running core;
a waiting or halted core stays as it is (log entry 28). -/
def proceed (irq : Option IrqRequest) (s : State) : Out :=
  match s.taken irq with
  | some q => Res.outcome (takeInterrupt q s)
  | none =>
    match s.runState with
    | .running => runInstruction s
    | _ => .next s

/-- The byte stores to ram of what an outcome answers: all of them, or those before the access on which the model
stops. Every other stop comes before the first store (log entry 16). -/
def Out.stores (o : Out) : List (PhysAddr × Byte) :=
  match o with
  | .next t => t.stores
  | .refused (.unsupportedU1 stored) => stored
  | _ => []

/-- The state in which a reset finds what was in progress: of its stores, those marked in the list have happened
(70_reset_and_hazards.md R490, log entry 16). -/
def cutShort (landed : List Bool) (irq : Option IrqRequest) (s : State) : State :=
  { s with mem := Cells.land landed (Out.stores (proceed irq s)) s.mem }

/-- One instruction boundary and what follows it; a reset comes before everything and cuts short what was in
progress (60_exceptions.md R457, 70_reset_and_hazards.md R490). -/
def stepAt (s : State) : Out :=
  match s.boundary.reset with
  | some p => .next (applyReset p (cutShort p.landed s.boundary.irq s.answered))
  | none => proceed s.boundary.irq s.answered

/-- Stores bytes from an address on in program memory (used by `State.withFetchWord`). -/
def State.placeBytes (s : State) (a : Word) (bs : List Byte) : State :=
  match bs with
  | [] => s
  | b :: bs =>
    State.placeBytes { s with mem := Cells.write s.mem (s.translate .prog a).toNat b } (a + 1) bs

/-- Memory is present wherever the next instruction is fetched. -/
def State.fetchable (s : State) (a : Word) (n : Nat) : Bool :=
  match n with
  | 0 => true
  | n + 1 => memKind s.memRegions .prog (s.translate .prog a) != .absent && State.fetchable s (a + 1) n

/-- The state with every program byte present, if the fetch needs one that is not. -/
def State.withMemory (s : State) : State :=
  if s.fetchable s.pc Config.maxInstrBytes then s
  else { s with memRegions := { space := .prog, base := 0, size := memBound, kind := .ram } :: s.memRegions }

/-- The state with a quiet next boundary, if it is not quiet. -/
def State.withQuiet (s : State) : State :=
  if s.boundary = Boundary.quiet then s else { s with inputs := Boundary.quiet :: s.inputs }

end Sys2Proof.Machine
end

