-- ==== Sys2Proof/Machine/Step.lean ====
section
/-! DEFINITION. One step of the machine, and placing an instruction where the next step fetches it. -/

namespace Sys2Proof.Machine

/-- One step (spec/60_exceptions.md R457, spec/30_encoding.md R103). -/
def step (s : State) : Host.Outcome State Fault Refusal := stepAt s

/-- The state whose next step fetches and runs the instruction of an opcode-table word: its bytes, followed by
zeros up to the longest instruction, stand at the fetch address; the core runs, the next boundary is quiet and
memory is present there (log entries 4 and 26). -/
def State.withFetchWord (s : State) (nbits w : Nat) : State :=
  ({ s with runState := .running }.withMemory.withQuiet).placeBytes s.pc (tableWindow nbits w)

end Sys2Proof.Machine
end

