-- ==== Sys2Proof/Safety.lean ====
section
/-! DEFINITION. The terms in which statements about the machine are written.

The first part says when a register access goes through (10_state.md R24, 93_implementation_defined.md U1) and
gives registers, pairs and operand forms as total functions, restated from the tables of 41_alu2.md R201 and R202
and from 40_load.md. The second part classifies instructions by what they may change. -/

namespace Sys2Proof.Machine

/-! ## Registers without the window check -/

/-- The access to `Reg[a]` does not go through a window over group D. -/
def State.reachable (s : State) (a : Byte) : Bool := !s.blocked a

/-- Both registers of the pair at `a` are reachable. -/
def State.pairReachable (s : State) (a : Byte) : Bool := s.reachable a && s.reachable (a + 1)

/-- The pair at `a`, the high byte in the first register (10_state.md R28). -/
def State.pair (s : State) (a : Byte) : Word := word (s.reg a) (s.reg (a + 1))

/-- Writes the pair at `a`, the high byte first (10_state.md R28). -/
def State.setPair (s : State) (a : Byte) (v : Word) : State := (s.setReg a v.hi).setReg (a + 1) v.lo

/-- Writing `v` to the pair at `a` goes through. -/
def State.pairSettable (s : State) (a : Byte) (v : Word) : Bool :=
  s.reachable a && (s.setReg a v.hi).reachable (a + 1)

/-- Working register `rn`. -/
def State.w (s : State) (n : WReg) : Byte := s.reg (wregAddr n)

/-- Working register pair `rrn`. -/
def State.ww (s : State) (n : WPair) : Word := s.pair (wregAddr n)

/-- Working register `rn` is reachable. -/
def State.wOk (s : State) (n : WReg) : Bool := s.reachable (wregAddr n)

/-- Working register pair `rrn` is reachable. -/
def State.wwOk (s : State) (n : WPair) : Bool := s.pairReachable (wregAddr n)

/-- `rr[n] <- rr[n] + d`. -/
def State.bumped (s : State) (n : WPair) (d : Word) : State := s.setPair (wregAddr n) (s.ww n + d)

/-- `rr[n] <- rr[n] + d` goes through. -/
def State.bumpOk (s : State) (n : WPair) (d : Word) : Bool :=
  s.wwOk n && s.pairSettable (wregAddr n) (s.ww n + d)

/-- The place of a register in storage that no page pointer moves: its physical address, or 256 and more for a
paged register (10_state.md R21, R27). -/
def State.slot (s : State) (p : Byte) : Nat := if hiNib p = 0xF#4 then 256 + s.pageKey p else p.toNat

/-- The register in a place: below 240 by physical address, from 256 on the paged registers. -/
def State.slotByte (s : State) (k : Nat) : Byte :=
  if 256 ≤ k then Cells.read s.pages (k - 256) else s.cell (BitVec.ofNat 8 k)

/-- A place that holds a register. -/
def isSlot (k : Nat) : Bool := decide (k < 240) || decide (256 ≤ k)

/-- Writing the register in place `j` leaves the register in place `k` alone: another place, and not the other
register pointer, which shares the window bit (10_state.md R26). -/
def slotsApart (j k : Nat) : Bool :=
  j != k && !((j == 232 || j == 233) && (k == 232 || k == 233))

/-! ## Operand forms without the window check -/

/-- The byte a destination location holds (41_alu2.md R203 step 5). -/
def State.byteAt (s : State) (l : Loc) : Byte :=
  match l with
  | .reg a => s.reg a
  | .mem a => s.memByte .dest s.opSpace a

/-- A destination byte is reachable. -/
def State.byteOk (s : State) (l : Loc) : Bool :=
  match l with
  | .reg a => s.reachable a
  | .mem _ => true

/-- Stores a byte into a destination location (41_alu2.md R203 step 7). -/
def State.putByte (s : State) (l : Loc) (v : Byte) : State :=
  match l with
  | .reg a => s.setReg a v
  | .mem a => s.setMemByte s.opSpace a v

/-- The word a destination location holds (41_alu2.md R203 step 5). -/
def State.wordAt (s : State) (l : Loc) : Word :=
  match l with
  | .reg a => s.pair a
  | .mem a => s.memWord .dest s.opSpace a

/-- A destination word is reachable. -/
def State.wordOk (s : State) (l : Loc) : Bool :=
  match l with
  | .reg a => s.pairReachable a
  | .mem _ => true

/-- Stores a word into a destination location (41_alu2.md R203 step 7). -/
def State.putWord (s : State) (l : Loc) (v : Word) : State :=
  match l with
  | .reg a => s.setPair a v
  | .mem a => s.setMemWord s.opSpace a v

/-- Storing the word `v` into a destination location goes through. -/
def State.putWordOk (s : State) (l : Loc) (v : Word) : Bool :=
  match l with
  | .reg a => s.pairSettable a v
  | .mem _ => true

/-- The state after the pre-decrement of a byte form (41_alu2.md R201). -/
def KByteForm.started (f : KByteForm) (s : State) : State :=
  match f with
  | .a11 _ rrs => s.bumped rrs (-1)
  | .a12 rrd _ => s.bumped rrd (-1)
  | _ => s

/-- The pre-decrement of a byte form goes through. -/
def KByteForm.startOk (f : KByteForm) (s : State) : Bool :=
  match f with
  | .a11 _ rrs => s.bumpOk rrs (-1)
  | .a12 rrd _ => s.bumpOk rrd (-1)
  | _ => true

/-- The registers that a byte form reads for its destination address and its source are reachable. -/
def KByteForm.readable (f : KByteForm) (s : State) : Bool :=
  match f with
  | .a5 rd rs => s.wOk rd && s.reachable rs
  | .a6 _ rs => s.wOk rs && s.reachable (s.w rs)
  | .a7 _ rrs | .a9 _ rrs | .a11 _ rrs => s.wwOk rrs
  | .a8 rrd rs | .a10 rrd rs | .a12 rrd rs => s.wwOk rrd && s.reachable rs
  | .a13 _ rrn rrx => s.wwOk rrx && s.wwOk rrn
  | .a14 rrn rrx rs => s.wwOk rrx && s.wwOk rrn && s.wOk rs
  | .a15 _ _ rrx | .a16 _ _ rrx => s.wwOk rrx
  | .a17 _ rrx rs | .a18 _ rrx rs => s.wwOk rrx && s.reachable rs
  | .a19 _ _ | .a23 _ _ => true
  | .a20 _ rs => s.wOk rs
  | .a21 rrd rrs => s.pairReachable rrd && s.wwOk rrs
  | .a22 rrd _ => s.wwOk rrd

/-- The destination of a byte form: column D of 41_alu2.md R201. -/
def KByteForm.loc (f : KByteForm) (s : State) : Loc :=
  match f with
  | .a5 rd _ => .reg (s.w rd)
  | .a6 rd _ | .a7 rd _ | .a9 rd _ | .a11 rd _ | .a15 rd _ _ | .a16 rd _ _ => .reg rd
  | .a8 rrd _ | .a10 rrd _ | .a12 rrd _ | .a22 rrd _ => .mem (s.ww rrd)
  | .a13 rd _ _ | .a19 rd _ => .reg (wregAddr rd)
  | .a14 rrn rrx _ => .mem (s.ww rrx + s.ww rrn)
  | .a17 n rrx _ => .mem (s.ww rrx + n.signExtend 16)
  | .a18 nn rrx _ => .mem (s.ww rrx + nn)
  | .a20 nn _ | .a23 nn _ => .mem nn
  | .a21 rrd _ => .mem (s.pair rrd)

/-- The source of a byte form: column S of 41_alu2.md R201. -/
def KByteForm.value (f : KByteForm) (s : State) : Byte :=
  match f with
  | .a5 _ rs | .a8 _ rs | .a10 _ rs | .a12 _ rs | .a17 _ _ rs | .a18 _ _ rs => s.reg rs
  | .a6 _ rs => s.reg (s.w rs)
  | .a7 _ rrs | .a9 _ rrs | .a11 _ rrs | .a21 _ rrs => s.srcByte (s.ww rrs)
  | .a13 _ rrn rrx => s.srcByte (s.ww rrx + s.ww rrn)
  | .a14 _ _ rs | .a20 _ rs => s.w rs
  | .a15 _ n rrx => s.srcByte (s.ww rrx + n.signExtend 16)
  | .a16 _ nn rrx => s.srcByte (s.ww rrx + nn)
  | .a19 _ nn => s.srcByte nn
  | .a22 _ n | .a23 _ n => n

/-- The state after the post-increment of a byte form (41_alu2.md R201). -/
def KByteForm.finished (f : KByteForm) (s : State) : State :=
  match f with
  | .a9 _ rrs => s.bumped rrs 1
  | .a10 rrd _ => s.bumped rrd 1
  | _ => s

/-- The post-increment of a byte form goes through. -/
def KByteForm.finishOk (f : KByteForm) (s : State) : Bool :=
  match f with
  | .a9 _ rrs => s.bumpOk rrs 1
  | .a10 rrd _ => s.bumpOk rrd 1
  | _ => true

/-- The state after the pre-decrement of a form A1 to A23. -/
def AluByteForm.started (f : AluByteForm) (s : State) : State :=
  match f with
  | .k f => KByteForm.started f s
  | _ => s

/-- The pre-decrement of a form A1 to A23 goes through. -/
def AluByteForm.startOk (f : AluByteForm) (s : State) : Bool :=
  match f with
  | .k f => KByteForm.startOk f s
  | _ => true

/-- The registers that a form A1 to A23 reads for its destination address and its source are reachable. -/
def AluByteForm.readable (f : AluByteForm) (s : State) : Bool :=
  match f with
  | .a1 _ rs => s.wOk rs
  | .a2 _ rs => s.wOk rs && s.reachable (s.w rs)
  | .a3 _ rs => s.reachable rs
  | .a4 _ _ => true
  | .k f => KByteForm.readable f s

/-- The destination of a form A1 to A23: column D of 41_alu2.md R201. -/
def AluByteForm.loc (f : AluByteForm) (s : State) : Loc :=
  match f with
  | .a1 rd _ | .a2 rd _ => .reg (wregAddr rd)
  | .a3 rd _ | .a4 rd _ => .reg rd
  | .k f => KByteForm.loc f s

/-- The source of a form A1 to A23: column S of 41_alu2.md R201. -/
def AluByteForm.value (f : AluByteForm) (s : State) : Byte :=
  match f with
  | .a1 _ rs => s.w rs
  | .a2 _ rs => s.reg (s.w rs)
  | .a3 _ rs => s.reg rs
  | .a4 _ n => n
  | .k f => KByteForm.value f s

/-- The state after the post-increment of a form A1 to A23. -/
def AluByteForm.finished (f : AluByteForm) (s : State) : State :=
  match f with
  | .k f => KByteForm.finished f s
  | _ => s

/-- The post-increment of a form A1 to A23 goes through. -/
def AluByteForm.finishOk (f : AluByteForm) (s : State) : Bool :=
  match f with
  | .k f => KByteForm.finishOk f s
  | _ => true

/-- The state after the pre-decrement of a word form (41_alu2.md R202). -/
def KWordForm.started (f : KWordForm) (s : State) : State :=
  match f with
  | .w12 _ rrs => s.bumped rrs (-2)
  | .w13 rrd _ => s.bumped rrd (-2)
  | _ => s

/-- The pre-decrement of a word form goes through. -/
def KWordForm.startOk (f : KWordForm) (s : State) : Bool :=
  match f with
  | .w12 _ rrs => s.bumpOk rrs (-2)
  | .w13 rrd _ => s.bumpOk rrd (-2)
  | _ => true

/-- The register that holds a pair address holds an even one (93_implementation_defined.md U2). -/
def KWordForm.even (f : KWordForm) (s : State) : Bool :=
  match f with
  | .w7 rd _ => !byteFlag (s.w rd)
  | .w8 _ rs => !byteFlag (s.w rs)
  | _ => true

/-- The registers that a word form reads for its destination address and its source are reachable. -/
def KWordForm.readable (f : KWordForm) (s : State) : Bool :=
  match f with
  | .w7 rd rrs => s.wOk rd && s.pairReachable rrs
  | .w8 _ rs => s.wOk rs && s.pairReachable (s.w rs)
  | .w9 _ rrs | .w10 _ rrs | .w12 _ rrs | .w21 _ rrs => s.wwOk rrs
  | .w11 rrd rrs | .w13 rrd rrs | .w22 rrd rrs => s.wwOk rrd && s.pairReachable rrs
  | .w14 _ rrn rrx => s.wwOk rrx && s.wwOk rrn
  | .w15 rrn rrx rrs => s.wwOk rrx && s.wwOk rrn && s.wwOk rrs
  | .w16 _ _ rrx | .w17 _ _ rrx | .w24 _ rrx _ | .w25 _ rrx _ => s.wwOk rrx
  | .w18 _ rrx rrs | .w19 _ rrx rrs => s.wwOk rrx && s.pairReachable rrs
  | .w20 _ _ | .w26 _ _ => true
  | .w23 rrd _ => s.wwOk rrd

/-- The destination of a word form: column D of 41_alu2.md R202. -/
def KWordForm.loc (f : KWordForm) (s : State) : Loc :=
  match f with
  | .w7 rd _ => .reg (s.w rd)
  | .w8 rrd _ | .w9 rrd _ | .w10 rrd _ | .w12 rrd _ | .w16 rrd _ _ | .w17 rrd _ _ => .reg rrd
  | .w11 rrd _ | .w13 rrd _ | .w22 rrd _ | .w23 rrd _ => .mem (s.ww rrd)
  | .w14 rrd _ _ | .w20 rrd _ => .reg (wregAddr rrd)
  | .w15 rrn rrx _ => .mem (s.ww rrx + s.ww rrn)
  | .w18 n rrx _ | .w24 n rrx _ => .mem (s.ww rrx + n.signExtend 16)
  | .w19 nn rrx _ | .w25 nn rrx _ => .mem (s.ww rrx + nn)
  | .w21 nn _ | .w26 nn _ => .mem nn

/-- The source of a word form: column S of 41_alu2.md R202. -/
def KWordForm.value (f : KWordForm) (s : State) : Word :=
  match f with
  | .w7 _ rrs | .w11 _ rrs | .w13 _ rrs | .w18 _ _ rrs | .w19 _ _ rrs | .w22 _ rrs => s.pair rrs
  | .w8 _ rs => s.pair (s.w rs)
  | .w9 _ rrs | .w10 _ rrs | .w12 _ rrs => s.srcWord (s.ww rrs)
  | .w14 _ rrn rrx => s.srcWord (s.ww rrx + s.ww rrn)
  | .w15 _ _ rrs | .w21 _ rrs => s.ww rrs
  | .w16 _ n rrx => s.srcWord (s.ww rrx + n.signExtend 16)
  | .w17 _ nn rrx => s.srcWord (s.ww rrx + nn)
  | .w20 _ nn => s.srcWord nn
  | .w23 _ nn | .w24 _ _ nn | .w25 _ _ nn | .w26 _ nn => nn

/-- The state after the post-increment of a word form (41_alu2.md R202). -/
def KWordForm.finished (f : KWordForm) (s : State) : State :=
  match f with
  | .w10 _ rrs => s.bumped rrs 2
  | .w11 rrd _ => s.bumped rrd 2
  | _ => s

/-- The post-increment of a word form goes through. -/
def KWordForm.finishOk (f : KWordForm) (s : State) : Bool :=
  match f with
  | .w10 _ rrs => s.bumpOk rrs 2
  | .w11 rrd _ => s.bumpOk rrd 2
  | _ => true

/-- The state after the pre-decrement of a form W1 to W26. -/
def AluWordForm.started (f : AluWordForm) (s : State) : State :=
  match f with
  | .k f => KWordForm.started f s
  | _ => s

/-- The pre-decrement of a form W1 to W26 goes through. -/
def AluWordForm.startOk (f : AluWordForm) (s : State) : Bool :=
  match f with
  | .k f => KWordForm.startOk f s
  | _ => true

/-- The register that holds a pair address holds an even one. -/
def AluWordForm.even (f : AluWordForm) (s : State) : Bool :=
  match f with
  | .k f => KWordForm.even f s
  | _ => true

/-- The registers that a form W1 to W26 reads for its destination address and its source are reachable. -/
def AluWordForm.readable (f : AluWordForm) (s : State) : Bool :=
  match f with
  | .w1 _ rrs | .w2 _ rrs => s.wwOk rrs
  | .w3 rrd rrs | .w4 rrd rrs => s.wwOk rrd && s.wwOk rrs
  | .w5 _ rrs => s.pairReachable rrs
  | .w6 _ _ => true
  | .k f => KWordForm.readable f s

/-- The destination of a form W1 to W26: column D of 41_alu2.md R202. -/
def AluWordForm.loc (f : AluWordForm) (s : State) : Loc :=
  match f with
  | .w1 rrd _ | .w2 rrd _ => .reg (wregAddr rrd)
  | .w3 rrd _ | .w4 rrd _ => .mem (s.ww rrd)
  | .w5 rrd _ | .w6 rrd _ => .reg rrd
  | .k f => KWordForm.loc f s

/-- The source of a form W1 to W26: column S of 41_alu2.md R202. -/
def AluWordForm.value (f : AluWordForm) (s : State) : Word :=
  match f with
  | .w1 _ rrs | .w3 _ rrs => s.ww rrs
  | .w2 _ rrs | .w4 _ rrs => s.srcWord (s.ww rrs)
  | .w5 _ rrs => s.pair rrs
  | .w6 _ nn => nn
  | .k f => KWordForm.value f s

/-- The state after the post-increment of a form W1 to W26. -/
def AluWordForm.finished (f : AluWordForm) (s : State) : State :=
  match f with
  | .k f => KWordForm.finished f s
  | _ => s

/-- The post-increment of a form W1 to W26 goes through. -/
def AluWordForm.finishOk (f : AluWordForm) (s : State) : Bool :=
  match f with
  | .k f => KWordForm.finishOk f s
  | _ => true

/-- The state after the pre-decrement of an LD form. -/
def LdForm.started (f : LdForm) (s : State) : State :=
  match f with
  | .k f => KByteForm.started f s
  | _ => s

/-- The pre-decrement of an LD form goes through. -/
def LdForm.startOk (f : LdForm) (s : State) : Bool :=
  match f with
  | .k f => KByteForm.startOk f s
  | _ => true

/-- The registers that an LD form reads for its destination address and its source are reachable. -/
def LdForm.readable (f : LdForm) (s : State) : Bool :=
  match f with
  | .x8 _ rs | .f4 _ rs => s.reachable rs
  | .x9 _ rs => s.wOk rs
  | .xC _ _ | .f5 _ _ => true
  | .e4 _ rs => s.wOk rs && s.reachable (s.w rs)
  | .e5 rd rs => s.wOk rd && s.wOk rs
  | .b2 _ rx rs => s.wOk rx && s.wOk rs
  | .b3 _ n rx => s.wOk rx && s.reachable (n + s.w rx)
  | .b5Load _ rrs => s.wwOk rrs
  | .b5Store rrd rs => s.wwOk rrd && s.wOk rs
  | .d7Load rd rrs => s.wOk rd && s.wwOk rrs
  | .d7Store rrd rs => s.wwOk rrd && s.wOk rs && s.reachable (s.w rs)
  | .k f => KByteForm.readable f s

/-- The destination of an LD form (40_load.md R141 to R170). -/
def LdForm.loc (f : LdForm) (s : State) : Loc :=
  match f with
  | .x8 rd _ | .xC rd _ | .e4 rd _ | .b3 rd _ _ | .b5Load rd _ => .reg (wregAddr rd)
  | .x9 rd _ | .f4 rd _ | .f5 rd _ => .reg rd
  | .e5 rd _ | .d7Load rd _ => .reg (s.w rd)
  | .b2 n rx _ => .reg (n + s.w rx)
  | .b5Store rrd _ | .d7Store rrd _ => .mem (s.ww rrd)
  | .k f => KByteForm.loc f s

/-- The source of an LD form (40_load.md R141 to R170). -/
def LdForm.value (f : LdForm) (s : State) : Byte :=
  match f with
  | .x8 _ rs | .f4 _ rs => s.reg rs
  | .x9 _ rs | .e5 _ rs | .b2 _ _ rs | .b5Store _ rs => s.w rs
  | .xC _ n | .f5 _ n => n
  | .e4 _ rs | .d7Store _ rs => s.reg (s.w rs)
  | .b3 _ n rx => s.reg (n + s.w rx)
  | .b5Load _ rrs | .d7Load _ rrs => s.srcByte (s.ww rrs)
  | .k f => KByteForm.value f s

/-- The state after the increment of the working register of R154 and R155. -/
def State.bumpedW (s : State) (n : WReg) : State := s.setReg (wregAddr n) (s.w n + 1)

/-- The state after the post-increments of an LD form (40_load.md R154, R155, R158, R159). -/
def LdForm.finished (f : LdForm) (s : State) : State :=
  match f with
  | .d7Load rd rrs => (s.bumpedW rd).bumped rrs 1
  | .d7Store rrd rs => (s.bumpedW rs).bumped rrd 1
  | .k f => KByteForm.finished f s
  | _ => s

/-- The post-increments of an LD form go through. -/
def LdForm.finishOk (f : LdForm) (s : State) : Bool :=
  match f with
  | .d7Load rd rrs => s.wOk rd && (s.bumpedW rd).bumpOk rrs 1
  | .d7Store rrd rs => s.wOk rs && (s.bumpedW rs).bumpOk rrd 1
  | .k f => KByteForm.finishOk f s
  | _ => true

/-- The state after the pre-decrement of an LDW form. -/
def LdwForm.started (f : LdwForm) (s : State) : State :=
  match f with
  | .k f => KWordForm.started f s
  | _ => s

/-- The pre-decrement of an LDW form goes through. -/
def LdwForm.startOk (f : LdwForm) (s : State) : Bool :=
  match f with
  | .k f => KWordForm.startOk f s
  | _ => true

/-- The pair address that a register gives is even (93_implementation_defined.md U2). -/
def LdwForm.even (f : LdwForm) (s : State) : Bool :=
  match f with
  | .deStore n rx _ => !byteFlag (n + s.w rx)
  | .deLoad _ n rx => !byteFlag (n + s.w rx)
  | .k f => KWordForm.even f s
  | _ => true

/-- The registers that an LDW form reads for its destination address and its source are reachable. -/
def LdwForm.readable (f : LdwForm) (s : State) : Bool :=
  match f with
  | .e3 _ rrs | .e3Load _ rrs => s.wwOk rrs
  | .e3Store rrd rrs | .e3Move rrd rrs => s.wwOk rrd && s.wwOk rrs
  | .ef _ rrs => s.pairReachable rrs
  | .bf _ _ => true
  | .deStore _ rx rrs => s.wOk rx && s.wwOk rrs
  | .deLoad _ n rx => s.wOk rx && s.pairReachable (n + s.w rx)
  | .k f => KWordForm.readable f s

/-- The destination of an LDW form (40_load.md R176 to R199). -/
def LdwForm.loc (f : LdwForm) (s : State) : Loc :=
  match f with
  | .e3 rrd _ | .e3Load rrd _ | .deLoad rrd _ _ => .reg (wregAddr rrd)
  | .e3Store rrd _ | .e3Move rrd _ => .mem (s.ww rrd)
  | .ef rrd _ | .bf rrd _ => .reg rrd
  | .deStore n rx _ => .reg (n + s.w rx)
  | .k f => KWordForm.loc f s

/-- The source of an LDW form (40_load.md R176 to R199). -/
def LdwForm.value (f : LdwForm) (s : State) : Word :=
  match f with
  | .e3 _ rrs | .e3Store _ rrs | .deStore _ _ rrs => s.ww rrs
  | .e3Load _ rrs | .e3Move _ rrs => s.srcWord (s.ww rrs)
  | .ef _ rrs => s.pair rrs
  | .bf _ nn => nn
  | .deLoad _ n rx => s.pair (n + s.w rx)
  | .k f => KWordForm.value f s

/-- The state after the post-increment of an LDW form. -/
def LdwForm.finished (f : LdwForm) (s : State) : State :=
  match f with
  | .k f => KWordForm.finished f s
  | _ => s

/-- The post-increment of an LDW form goes through. -/
def LdwForm.finishOk (f : LdwForm) (s : State) : Bool :=
  match f with
  | .k f => KWordForm.finishOk f s
  | _ => true

/-- The register address of the target of a one-operand instruction (42_alu1.md R260). -/
def State.target (s : State) (t : ByteTarget) : Byte :=
  match t with
  | .direct r => r
  | .indirect r => s.reg r

/-- The target of a one-operand instruction can be read. -/
def State.targetReachable (s : State) (t : ByteTarget) : Bool :=
  match t with
  | .direct r => s.reachable r
  | .indirect r => s.reachable r && s.reachable (s.reg r)

/-- The segment and target that JPS and CALLS go to (46_control.md R375, R377). -/
def State.far (s : State) (f : FarForm) : BitVec 6 × Word :=
  match f with
  | .direct seg nn => (seg, nn)
  | .indirect r rr => ((s.reg r).extractLsb' 0 6, s.ww rr)

/-- The operands of JPS and CALLS can be read. -/
def State.farReachable (s : State) (f : FarForm) : Bool :=
  match f with
  | .direct _ _ => true
  | .indirect r rr => s.reachable r && s.pairReachable (wregAddr rr)

/-! ## Stacks without the window check (43_stack.md R300 to R303) -/

/-- The state after a byte push. -/
def State.pushed8 (s : State) (k : Stack) (v : Byte) : State :=
  if s.inRegfile k then (s.setSpLow k (s.spLow k - 1)).setReg (s.spLow k - 1) v
  else (s.setSp k (s.sp k - 1)).setMemByte .data (s.sp k - 1) v

/-- A byte push goes through. -/
def State.push8Ok (s : State) (k : Stack) : Bool := !s.inRegfile k || s.reachable (s.spLow k - 1)

/-- The state after the high byte of a word has been pushed into the register file. -/
def State.pushedHigh (s : State) (k : Stack) (w : Word) : State :=
  (s.setSpLow k (s.spLow k - 2)).setReg (s.spLow k - 2) w.hi

/-- The state after a word push. -/
def State.pushed16 (s : State) (k : Stack) (w : Word) : State :=
  if s.inRegfile k then (s.pushedHigh k w).setReg ((s.pushedHigh k w).spLow k + 1) w.lo
  else (s.setSp k (s.sp k - 2)).setMemWord .data (s.sp k - 2) w

/-- A word push goes through. -/
def State.push16Ok (s : State) (k : Stack) (w : Word) : Bool :=
  !s.inRegfile k ||
    (s.reachable (s.spLow k - 2) && (s.pushedHigh k w).reachable ((s.pushedHigh k w).spLow k + 1))

/-- The byte on top of a stack. -/
def State.top8 (s : State) (k : Stack) : Byte :=
  if s.inRegfile k then s.reg (s.spLow k) else s.memByte .source .data (s.sp k)

/-- The word on top of a stack. -/
def State.top16 (s : State) (k : Stack) : Word :=
  if s.inRegfile k then word (s.reg (s.spLow k)) (s.reg (s.spLow k + 1)) else s.memWord .source .data (s.sp k)

/-- The state after `n` bytes have been popped. -/
def State.dropped (s : State) (k : Stack) (n : Byte) : State :=
  if s.inRegfile k then s.setSpLow k (s.spLow k + n) else s.setSp k (s.sp k + n.zeroExtend 16)

/-- A byte pop goes through. -/
def State.pop8Ok (s : State) (k : Stack) : Bool := !s.inRegfile k || s.reachable (s.spLow k)

/-- A word pop goes through. -/
def State.pop16Ok (s : State) (k : Stack) : Bool :=
  !s.inRegfile k || (s.reachable (s.spLow k) && s.reachable (s.spLow k + 1))

/-- PUSH or PUSHU, by the stack. -/
def Instr.ofPush (k : Stack) (f : PushForm) : Instr :=
  match k with
  | .system => .push f
  | .user => .pushu f

/-- POP or POPU, by the stack. -/
def Instr.ofPop (k : Stack) (t : ByteTarget) : Instr :=
  match k with
  | .system => .pop t
  | .user => .popu t

/-- POPW or POPUW, by the stack. -/
def Instr.ofPopw (k : Stack) (rr : RegPair) : Instr :=
  match k with
  | .system => .popw rr
  | .user => .popuw rr

/-- LINK or LINKU, by the stack. -/
def Instr.ofLink (k : Stack) (rr : RegPair) (n : Byte) : Instr :=
  match k with
  | .system => .link rr n
  | .user => .linku rr n

/-- UNLINK or UNLINKU, by the stack. -/
def Instr.ofUnlink (k : Stack) (rr : RegPair) : Instr :=
  match k with
  | .system => .unlink rr
  | .user => .unlinku rr

/-- The byte that PUSH and PUSHU push. -/
def State.pushValue (s : State) (f : PushForm) : Byte :=
  match f with
  | .reg t => s.reg (s.target t)
  | .imm n => n

/-- The operand of PUSH and PUSHU can be read. -/
def State.pushReachable (s : State) (f : PushForm) : Bool :=
  match f with
  | .reg t => s.targetReachable t
  | .imm _ => true

/-- The stack and the word of an instruction that pushes a word operand or an effective address, where its
operand can be read (43_stack.md R306, R308, R313, R314). -/
def Instr.pushedWord (i : Instr) (s : State) : Option (Stack × Word) :=
  match i with
  | .pushw (.imm nn) => some (.system, nn)
  | .pushuw (.imm nn) => some (.user, nn)
  | .pushw (.pair rr) => if s.pairReachable rr then some (.system, s.pair rr) else none
  | .pushuw (.pair rr) => if s.pairReachable rr then some (.user, s.pair rr) else none
  | .pea (.short n rr) => if s.pairReachable rr then some (.system, s.pair rr + n.signExtend 16) else none
  | .peau (.short n rr) => if s.pairReachable rr then some (.user, s.pair rr + n.signExtend 16) else none
  | .pea (.long nn rr) => if s.pairReachable rr then some (.system, s.pair rr + nn) else none
  | .peau (.long nn rr) => if s.pairReachable rr then some (.user, s.pair rr + nn) else none
  | _ => none

/-! ## Flags -/

/-- What an update writes into a flag; `none` leaves it. -/
def FlagUpdate.get (u : FlagUpdate) (f : FlagName) : Option Bool :=
  match f with
  | .c => u.c
  | .z => u.z
  | .s => u.s
  | .v => u.v
  | .d => u.d
  | .h => u.h

/-- Z and S from a byte result, C and V as given; D and H stay. -/
def byteFlags (r : Byte) (c v : Option Bool) : FlagUpdate :=
  { c := c, z := some (r == 0), s := some r.msb, v := v }

/-- Z and S from a word result, C and V as given; D and H stay. -/
def wordFlags (r : Word) (c v : Option Bool) : FlagUpdate :=
  { c := c, z := some (r == 0), s := some r.msb, v := v }

/-- The two BCD digits of a number below 100. -/
def bcd (n : Nat) : Byte := BitVec.ofNat 8 (16 * (n / 10) + n % 10)

/-! ## What an instruction may change -/

/-- The physical addresses that a byte store into a location writes. -/
def State.locBytes (s : State) (l : Loc) : List PhysAddr :=
  match l with
  | .reg _ => []
  | .mem a => [s.translate s.opSpace a]

/-- The physical addresses that a word store into a location writes. -/
def State.locWords (s : State) (l : Loc) : List PhysAddr :=
  match l with
  | .reg _ => []
  | .mem a => [s.translate s.opSpace a, s.translate s.opSpace (a + 1)]

/-- The physical addresses that a byte push writes. -/
def State.pushBytes (s : State) (k : Stack) : List PhysAddr :=
  if s.inRegfile k then [] else [s.translate .data (s.sp k - 1)]

/-- The physical addresses that a word push writes. -/
def State.pushWords (s : State) (k : Stack) : List PhysAddr :=
  if s.inRegfile k then [] else [s.translate .data (s.sp k - 2), s.translate .data (s.sp k - 2 + 1)]

/-- The addresses that a computation answers; none where it does not answer. -/
def Res.addrs (r : Res (List PhysAddr)) : List PhysAddr :=
  match r with
  | .ok l => l
  | .error _ => []

/-- The physical addresses that a byte instruction of an operation writes. -/
def aluByteStores (op : AluOp) (f : AluByteForm) (s : State) : List PhysAddr := Res.addrs do
  let s ← AluByteForm.pre f s
  let l ← AluByteForm.dst f s
  .ok (if aluStores op then s.locBytes l else [])

/-- The physical addresses that a word instruction of an operation writes. -/
def aluWordStores (op : AluOp) (f : AluWordForm) (s : State) : List PhysAddr := Res.addrs do
  let s ← AluWordForm.pre f s
  let l ← AluWordForm.dst f s
  .ok (if aluStores op then s.locWords l else [])

/-- The physical addresses that LD writes. -/
def ldStores (f : LdForm) (s : State) : List PhysAddr := Res.addrs do
  let s ← LdForm.pre f s
  let l ← LdForm.dst f s
  .ok (s.locBytes l)

/-- The physical addresses that LDW writes. -/
def ldwStores (f : LdwForm) (s : State) : List PhysAddr := Res.addrs do
  let s ← LdwForm.pre f s
  let l ← LdwForm.dst f s
  .ok (s.locWords l)

/-- The physical addresses that a copy to space `spd` writes. -/
def copyStores (spd : Space) (rrd : WPair) (s : State) : List PhysAddr := Res.addrs do
  let d ← readWW rrd s
  .ok [s.translate spd d]

/-- The physical addresses that BTSET writes. -/
def btsetStores (f : BtsetForm) (s : State) : List PhysAddr :=
  match f with
  | .reg _ _ => []
  | .mem _ rr => Res.addrs do
    let a ← readWW rr s
    .ok [s.translate s.opSpace a]

/-- The physical addresses that CALLS writes: the word of the pc and the byte of CSR below it. -/
def callsStores (s : State) : List PhysAddr :=
  if s.inRegfile .system then []
  else s.pushWords .system ++ [s.translate .data (s.ssp - 2 - 1)]

/-- The physical addresses that DIV writes: the stack, if the divisor is 0. -/
def divStores (rs : WReg) (s : State) : List PhysAddr := Res.addrs do
  let d ← readW rs s
  .ok (if d = 0 then s.pushWords .system else [])

/-- The physical addresses that an instruction stores to. -/
def Instr.stores (i : Instr) (s : State) : List PhysAddr :=
  match i with
  | .or f => aluByteStores .or f s
  | .and f => aluByteStores .and f s
  | .sbc f => aluByteStores .sbc f s
  | .adc f => aluByteStores .adc f s
  | .add f => aluByteStores .add f s
  | .sub f => aluByteStores .sub f s
  | .xor f => aluByteStores .xor f s
  | .orw f => aluWordStores .or f s
  | .andw f => aluWordStores .and f s
  | .sbcw f => aluWordStores .sbc f s
  | .adcw f => aluWordStores .adc f s
  | .addw f => aluWordStores .add f s
  | .subw f => aluWordStores .sub f s
  | .xorw f => aluWordStores .xor f s
  | .tcm _ | .cp _ | .tm _ | .tcmw _ | .cpw _ | .tmw _ => []
  | .ld f => ldStores f s
  | .ldw f => ldwStores f s
  | .ldpp rrd _ | .ldpd rrd _ => copyStores .prog rrd s
  | .lddp rrd _ | .lddd rrd _ => copyStores .data rrd s
  | .push _ => s.pushBytes .system
  | .pushu _ => s.pushBytes .user
  | .pushw _ | .pea _ | .link _ _ | .call _ => s.pushWords .system
  | .pushuw _ | .peau _ | .linku _ _ => s.pushWords .user
  | .calls _ => callsStores s
  | .div _ rs => divStores rs s
  | .btset f => btsetStores f s
  | .inc _ | .dec _ | .clr _ | .cpl _ | .swap _ | .da _ | .rlc _ | .rrc _ | .rol _ | .ror _ | .sra _ => []
  | .incw _ | .decw _ | .rlcw _ | .rrcw _ | .sraw _ => []
  | .pop _ | .popu _ | .popw _ | .popuw _ | .unlink _ | .unlinku _ | .mul _ _ | .divws _ _ _ => []
  | .band _ _ _ _ _ | .bor _ _ _ _ _ | .bxor _ _ _ _ _ | .bld _ _ _ _ _ => []
  | .bset _ _ | .bres _ _ | .bcpl _ _ | .btjf _ _ _ | .btjt _ _ _ => []
  | .jpf _ | .jplt _ | .jple _ | .jpule _ | .jpov _ | .jpmi _ | .jpeq _ | .jpult _ => []
  | .jpt _ | .jpge _ | .jpgt _ | .jpugt _ | .jpnov _ | .jppl _ | .jpne _ | .jpuge _ => []
  | .jrf _ | .jrlt _ | .jrle _ | .jrule _ | .jrov _ | .jrmi _ | .jreq _ | .jrult _ => []
  | .jrt _ | .jrge _ | .jrgt _ | .jrugt _ | .jrnov _ | .jrpl _ | .jrne _ | .jruge _ => []
  | .jp _ | .jps _ | .ret | .rets | .iret | .djnz _ _ | .dwjnz _ _ | .cpjfi _ _ _ | .cpjti _ _ _ => []
  | .srp _ | .srp0 _ | .srp1 _ | .spp _ | .xch _ _ | .ext _ | .ei | .di | .scf | .rcf | .ccf => []
  | .spm | .sdm | .nop | .wfi | .halt | .etrap | .eret => []

/-- The instructions that may change CSR: the far jumps, calls and returns, and IRET. -/
def Instr.writesCsr : Instr → Bool
  | .jps _ | .calls _ | .rets | .iret => true
  | _ => false

/-- The instructions that may change the run state. -/
def Instr.writesRunState : Instr → Bool
  | .wfi | .halt => true
  | _ => false

/-- The instructions that may transfer control: jumps, calls, returns, and DIV by its trap. -/
def Instr.writesPc : Instr → Bool
  | .jpf _ | .jplt _ | .jple _ | .jpule _ | .jpov _ | .jpmi _ | .jpeq _ | .jpult _ => true
  | .jpt _ | .jpge _ | .jpgt _ | .jpugt _ | .jpnov _ | .jppl _ | .jpne _ | .jpuge _ => true
  | .jrf _ | .jrlt _ | .jrle _ | .jrule _ | .jrov _ | .jrmi _ | .jreq _ | .jrult _ => true
  | .jrt _ | .jrge _ | .jrgt _ | .jrugt _ | .jrnov _ | .jrpl _ | .jrne _ | .jruge _ => true
  | .jp _ | .jps _ | .call _ | .calls _ | .ret | .rets | .iret => true
  | .djnz _ _ | .dwjnz _ _ | .cpjfi _ _ _ | .cpjti _ _ _ | .btjf _ _ _ | .btjt _ _ _ | .div _ _ => true
  | _ => false

/-- The byte forms that update a pointer (41_alu2.md R201). -/
def KByteForm.auto : KByteForm → Bool
  | .a9 _ _ | .a10 _ _ | .a11 _ _ | .a12 _ _ => true
  | _ => false

/-- The forms A1 to A23 that update a pointer. -/
def AluByteForm.auto : AluByteForm → Bool
  | .k f => KByteForm.auto f
  | _ => false

/-- The LD forms that update a pointer. -/
def LdForm.auto : LdForm → Bool
  | .d7Load _ _ | .d7Store _ _ => true
  | .k f => KByteForm.auto f
  | _ => false

/-- The register that a location names, if it names one. -/
def Res.written (r : Res Loc) : Option (List Byte) :=
  match r with
  | .ok (.reg a) => some [a]
  | .ok (.mem _) => some []
  | .error _ => none

/-- The registers that a byte instruction of an operation writes beside flags, for forms without a pointer
update. -/
def aluByteWritten (op : AluOp) (f : AluByteForm) (s : State) : Option (List Byte) :=
  if AluByteForm.auto f then none
  else if aluStores op then Res.written (AluByteForm.dst f s) else some []

/-- The registers that an instruction writes beside flags: none or one, for the instructions that write no more;
`none` for the others, whose whole effect other statements give. -/
def Instr.written (i : Instr) (s : State) : Option (List Byte) :=
  match i with
  | .or f => aluByteWritten .or f s
  | .and f => aluByteWritten .and f s
  | .sbc f => aluByteWritten .sbc f s
  | .adc f => aluByteWritten .adc f s
  | .add f => aluByteWritten .add f s
  | .sub f => aluByteWritten .sub f s
  | .xor f => aluByteWritten .xor f s
  | .tcm f => aluByteWritten .tcm f s
  | .cp f => aluByteWritten .cp f s
  | .tm f => aluByteWritten .tm f s
  | .ld f => if LdForm.auto f then none else Res.written (LdForm.dst f s)
  | .inc t | .dec t | .clr t | .cpl t | .swap t | .da t | .rlc t | .rrc t | .rol t | .ror t | .sra t =>
    Res.written do .ok (.reg (← targetAddr t s))
  | .band _ _ rd _ _ | .bor _ _ rd _ _ | .bxor _ _ rd _ _ | .bld _ _ rd _ _ => some [wregAddr rd]
  | .bset _ rd | .bres _ rd | .bcpl _ rd | .btset (.reg _ rd) | .djnz rd _ => some [wregAddr rd]
  | .ext rr => some [rr]
  | .btset (.mem _ _) | .btjf _ _ _ | .btjt _ _ _ => some []
  | .jpf _ | .jplt _ | .jple _ | .jpule _ | .jpov _ | .jpmi _ | .jpeq _ | .jpult _ => some []
  | .jpt _ | .jpge _ | .jpgt _ | .jpugt _ | .jpnov _ | .jppl _ | .jpne _ | .jpuge _ => some []
  | .jrf _ | .jrlt _ | .jrle _ | .jrule _ | .jrov _ | .jrmi _ | .jreq _ | .jrult _ => some []
  | .jrt _ | .jrge _ | .jrgt _ | .jrugt _ | .jrnov _ | .jrpl _ | .jrne _ | .jruge _ => some []
  | .jp _ | .jps _ | .scf | .rcf | .ccf | .spm | .sdm | .nop | .wfi | .halt => some []
  | _ => none

/-- Of the instructions that `Instr.written` covers, those whose rule writes no flag: FLAGR stays unless it is the
destination. -/
def Instr.keepsFlags : Instr → Bool
  | .ld _ | .clr _ | .ext _ | .djnz _ _ => true
  | .band _ _ _ _ _ | .bor _ _ _ _ _ | .bxor _ _ _ _ _ | .bld _ _ _ _ _ => true
  | .bset _ _ | .bres _ _ | .bcpl _ _ | .btjf _ _ _ | .btjt _ _ _ => true
  | .jpf _ | .jplt _ | .jple _ | .jpule _ | .jpov _ | .jpmi _ | .jpeq _ | .jpult _ => true
  | .jpt _ | .jpge _ | .jpgt _ | .jpugt _ | .jpnov _ | .jppl _ | .jpne _ | .jpuge _ => true
  | .jrf _ | .jrlt _ | .jrle _ | .jrule _ | .jrov _ | .jrmi _ | .jreq _ | .jrult _ => true
  | .jrt _ | .jrge _ | .jrgt _ | .jrugt _ | .jrnov _ | .jrpl _ | .jrne _ | .jruge _ => true
  | .jp _ | .jps _ | .nop | .wfi | .halt => true
  | _ => false

/-! ## Frames on a stack -/

/-- The physical addresses of the `n` bytes below the pointer of a stack in memory. -/
def State.frame (s : State) (k : Stack) (n : Nat) : List PhysAddr :=
  match n with
  | 0 => []
  | n + 1 => s.translate .data (s.sp k - BitVec.ofNat 16 (n + 1)) :: State.frame s k n

/-- The register addresses of the `n` bytes below the pointer of a stack in the register file. -/
def State.frameRegs (s : State) (k : Stack) (n : Nat) : List Byte :=
  match n with
  | 0 => []
  | n + 1 => (s.spLow k - BitVec.ofNat 8 (n + 1)) :: State.frameRegs s k n

/-- A register address that is reachable and names a register without a special role. -/
def State.ordinary (s : State) (a : Byte) : Bool :=
  s.reachable a && (decide (regRole (s.addr a) = .plain) || decide (regRole (s.addr a) = .paged))

/-- The next `n` bytes of a stack keep what is pushed: distinct bytes of ram, or registers without a special
role. -/
def State.frameOk (s : State) (k : Stack) (n : Nat) : Prop :=
  (s.inRegfile k = false →
    (s.frame k n).Nodup ∧ ∀ p ∈ s.frame k n, memKind s.memRegions .data p = .ram) ∧
  (s.inRegfile k = true → ∀ a ∈ s.frameRegs k n, s.ordinary a = true)

/-- The byte `i` places above the pointer of a stack. -/
def State.stackByte (s : State) (k : Stack) (i : Nat) : Byte :=
  if s.inRegfile k then s.reg (s.spLow k + BitVec.ofNat 8 i)
  else s.memByte .source .data (s.sp k + BitVec.ofNat 16 i)

end Sys2Proof.Machine
end

