-- ==== Sys2Proof/Certificates/Slice0/Obligations.lean ====
section
/-! DEFINITION. The statements about the model that the provers are asked to prove.

A statement of an instruction's result names the whole next state: it is the old state with exactly the writes
that the statement shows, and `RegisterWriteReachesOneRegister`, `MemoryReadsBackItsWrites` and
`FlagUpdateWritesItsFlags` say what each of those writes leaves alone. Free values stand in results as
applications of the opaque constants of `Config`, so that nothing rests on what they are. -/

open Sys2Proof Sys2Proof.Machine

/-! ## Encoding -/

/-- Decoding the bytes of a well-formed instruction gives the instruction, whatever follows (30_encoding.md R103). -/
def Obligations.DecodeInvertsEncode : Prop :=
  ∀ (i : Instr) (rest : List Byte), i.wf = true → decode (encode i ++ rest) = .ok (i, rest)

/-- Bytes that decode are the encoding of the well-formed instruction they decode to: no bit of an encoding is
ignored (30_encoding.md R103, R122). -/
def Obligations.EncodeInvertsDecode : Prop :=
  ∀ (bs : List Byte) (i : Instr) (rest : List Byte), decode bs = .ok (i, rest) →
    encode i ++ rest = bs ∧ i.wf = true

/-- Byte sequences of the manual's examples decode to the instructions they stand for
(95_test_vectors.md S5, S9, S12, S17, S19, E8, J27). -/
def Obligations.ExampleBytesDecode : Prop :=
  decode [0xD7, 0x82] = .ok (.ld (.d7Store 2 8), []) ∧
  decode [0x2F, 0xF1, 0x22, 0x30, 0x39] = .ok (.ld (.k (.a23 12345 34)), []) ∧
  decode [0xBE, 0xF8, 0x0D, 0x8B] = .ok (.ldw (.k (.w23 8 3467)), []) ∧
  decode [0x60, 0x51, 0xF8] = .ok (.ld (.k (.a14 4 0 8)), []) ∧
  decode [0xD2, 0x35, 0x21] = .ok (.call (.direct 0x3521), []) ∧
  decode [0xD5, 0x34, 0x40] = .ok (.adcw (.k (.w11 4 64)), []) ∧
  decode [0xD3] = .ok (.iret, [])

/-- A K nibble that the table of operations leaves out is a reserved encoding, in every format
(30_encoding.md R100, R122 item 1). -/
def Obligations.UnassignedOperationNibbleIsReserved : Prop :=
  ∀ (k : BitVec 4) (rest : List Byte), (k = 0x7 ∨ k = 0xB ∨ k = 0xC ∨ k = 0xD ∨ k = 0xE) →
    (∀ f : KByteForm, f.wf = true → decode (encodeKByte k f ++ rest) = .error .reservedK) ∧
    (∀ f : KWordForm, f.wf = true → decode (encodeKWord k f ++ rest) = .error .reservedK)

/-- The second bytes that the opcode map does not list, and literal flag bits with the wrong value, make reserved
encodings (30_encoding.md R122 items 2 to 8). -/
def Obligations.UnlistedPatternsAreReserved : Prop :=
  ∀ (b c d : Byte) (rest : List Byte),
    (nibFlag (loNib b) = true → hiNib b ≠ 0x4 → hiNib b ≠ 0xC →
      ∃ e, decode (0x73 :: b :: c :: rest) = .error e) ∧
    (byteFlag b = true → loNib b ≠ 0x1 →
      (∃ e, decode (0x2F :: b :: rest) = .error e) ∧ (∃ e, decode (0x36 :: b :: rest) = .error e)) ∧
    (b.extractLsb' 6 2 = 0b00 ∨ b.extractLsb' 6 2 = 0b10 →
      ∃ e, decode (0x3F :: b :: c :: d :: rest) = .error e) ∧
    (byteFlag b = true → b ≠ 0x01 → b ≠ 0x03 → b ≠ 0xC1 → b ≠ 0xC3 → b ≠ 0xF1 → b ≠ 0xF3 →
      ∃ e, decode (0x8F :: b :: rest) = .error e) ∧
    (byteFlag b = true → b ≠ 0x01 → ∃ e, decode (0xBF :: b :: rest) = .error e) ∧
    (byteFlag b = true → b ≠ 0x01 → b ≠ 0x31 → ∃ e, decode (0xEF :: b :: rest) = .error e) ∧
    (b ≠ 0x01 → byteFlag b = true ∨ bitFlag b = true → ∃ e, decode (0xF6 :: b :: rest) = .error e) ∧
    (b.extractLsb' 0 3 = 0b001 ∨ b.extractLsb' 0 3 = 0b011 ∨ b.extractLsb' 0 3 = 0b111 →
      ∃ e, decode (0xC7 :: b :: rest) = .error e) ∧
    (byteFlag b = true →
      (∃ e, decode (0xCF :: b :: rest) = .error e) ∧ (∃ e, decode (0xDF :: b :: rest) = .error e) ∧
      (∃ e, decode (0x96 :: b :: c :: rest) = .error e) ∧ (∃ e, decode (0x7E :: b :: c :: rest) = .error e) ∧
      (∃ e, decode (0xF3 :: b :: c :: rest) = .error e)) ∧
    (bitFlag b = true →
      (∃ e, decode (0x4F :: b :: rest) = .error e) ∧ (∃ e, decode (0x5F :: b :: rest) = .error e)) ∧
    (byteFlag b = true ∨ bitFlag c = true ∨ byteFlag c = true →
      ∃ e, decode (0x56 :: b :: c :: rest) = .error e) ∧
    (byteFlag b = false → byteFlag c = true →
      (∃ e, decode (0xEF :: b :: c :: rest) = .error e) ∧ (∃ e, decode (0x73 :: b :: c :: rest) = .error e) ∧
      (∀ op : AluOp, ∃ e, decode (nib op.k 0x7 :: b :: c :: rest) = .error e)) ∧
    (byteFlag c = true →
      (∃ e, decode (0x7E :: b :: c :: rest) = .error e) ∧ (∃ e, decode (0xC3 :: b :: c :: rest) = .error e) ∧
      (∃ e, decode (0xD5 :: b :: c :: rest) = .error e) ∧ (∃ e, decode (0xA6 :: b :: c :: rest) = .error e)) ∧
    (byteFlag b = true → byteFlag c = true → ∃ e, decode (0xBE :: b :: c :: rest) = .error e) ∧
    (bitFlag b = false → byteFlag c = true → ∃ e, decode (0x60 :: b :: c :: rest) = .error e)

/-! ## Steps -/

/-- A running core at a boundary without a reset and without an accepted interrupt runs the instruction that the
bytes at the pc decode to, with the pc past its bytes, the environment's answer taken and the counter of free
values advanced (30_encoding.md R103, 10_state.md R30). -/
def Obligations.StepRunsTheDecodedInstruction : Prop :=
  ∀ (s : State) (i : Instr) (rest : List Byte),
    s.runState = .running → s.boundary.reset = none → s.answered.taken s.boundary.irq = none →
    decode s.fetchWindow = .ok (i, rest) →
    step s = exec i (s.answered.advance (encode i).length)

/-- Bytes at the pc that decode to nothing stop the model with their address and themselves
(30_encoding.md R103 step 5, 92_eei_decisions.md D18; the window of bytes is log entry 11). -/
def Obligations.StepStopsAtReservedEncoding : Prop :=
  ∀ (s : State) (e : DecodeError),
    s.runState = .running → s.boundary.reset = none → s.answered.taken s.boundary.irq = none →
    decode s.fetchWindow = .error e →
    step s = .refused (.illegalEncoding s.pc s.fetchWindow)

/-- Every step keeps registers, pages and memory in their canonical form: keys rising and inside the register file,
the 64 pages and the physical memory, no entry that equals what an unlisted key reads as (10_state.md R21, R27,
20_memory.md R70; the form is the model's). -/
def Obligations.StepKeepsStorageCanonical : Prop :=
  ∀ s t : State, s.wf = true → step s = .next t → t.wf = true

/-- The storage of the reset state is in its canonical form. That `State.reset` lists no register and no byte of
memory is the model's choice (log entries 1 and 3), and so is the canonical form; the spec leaves storage after a
reset unspecified. -/
def Obligations.ResetStorageIsCanonical : Prop := State.reset.wf = true

/-- No step changes the device parameters: the two stack locations, the data translation, the memory map
(10_state.md R37, 20_memory.md R70, 70_reset_and_hazards.md R491; that they are fixed is the spec's choice D3, D5
and D6, log entries 8, 13 and 25). -/
def Obligations.StepKeepsDeviceParameters : Prop :=
  ∀ s t : State, step s = .next t →
    t.sspInRegfile = s.sspInRegfile ∧ t.uspInRegfile = s.uspInRegfile ∧
      t.dataMap = s.dataMap ∧ t.memRegions = s.memRegions

/-- A reset wins over everything, in every run state, and leaves the core running in segment 0 with CICR bit 4
and ENCSR at 0, the device parameters as they were, and the registers as the environment's reset parameters say.
A byte of RAM that a loss of power changed holds what the parameters say. Any other byte of memory is as the last
of those stores left it that the step without the reset would have made and that the parameters mark as done, or as
before where there is none; the stores of a step that stops at a window over group D are those before the access
(70_reset_and_hazards.md R490, R491, 93_implementation_defined.md U1, U14; decision D7 of the spec, the choice store by
store is log entry 16). -/
def Obligations.ResetWinsAtEveryBoundary : Prop :=
  ∀ (s u : State) (e : Option Bool) (p : ResetParams) (q : Option IrqRequest) (rest : List Boundary),
    s.inputs = { encsr := e, reset := some p, irq := q } :: rest →
    u = { s with inputs := { encsr := e, reset := none, irq := q } :: rest } →
    ∃ t, step s = .next t ∧ t.runState = .running ∧ t.csr = 0 ∧ t.ien = false ∧ t.encsr = false ∧
      t.memRegions = s.memRegions ∧ t.dataMap = s.dataMap ∧ t.inputs = rest ∧
      t.sspInRegfile = s.sspInRegfile ∧ t.uspInRegfile = s.uspInRegfile ∧
      t.pc = p.pc ∧ t.flagr = p.flagr ∧ t.cicr &&& 0xEF = p.cicr &&& 0xEF ∧
      t.rp0 = p.rp0 ∧ t.rp1 = p.rp1 ∧ t.twin = p.twin ∧ t.ppr = p.ppr ∧ t.ssp = p.ssp ∧ t.usp = p.usp ∧
      (∀ k < physBound, Cells.read t.phys k = Cells.read p.phys k) ∧
      (∀ k < pagesBound, Cells.read t.pages k = Cells.read p.pages k) ∧
      ∀ a : PhysAddr,
        (∀ b, memKind s.memRegions .prog a = .ram ∨ memKind s.memRegions .data a = .ram →
          p.ramLost.lookup a = some b → Cells.read t.mem a.toNat = b) ∧
        ((memKind s.memRegions .prog a ≠ .ram ∧ memKind s.memRegions .data a ≠ .ram) ∨
            p.ramLost.lookup a = none →
          (∀ w, (∃ v, step u = .next v ∧ w = v.stores) ∨ step u = .refused (.unsupportedU1 w) →
            Cells.read t.mem a.toNat =
              ((((p.landed.zip w).filter (·.1)).map (·.2)).reverse.lookup a).getD (Cells.read s.mem a.toNat)) ∧
          ((∀ v, step u ≠ .next v) → (∀ w, step u ≠ .refused (.unsupportedU1 w)) →
            Cells.read t.mem a.toNat = Cells.read s.mem a.toNat))

/-- A halted core is left only by a reset, its requests are not polled; a waiting core waits until a request is
accepted. A step of such a core changes nothing but that the environment's answer is used up and nothing is stored
(60_exceptions.md R463, R464; that such a boundary is a step is log entry 28, the list of stores log entry 16). -/
def Obligations.HaltedAndWaitingCoresStay : Prop :=
  ∀ s : State, s.boundary.reset = none →
    s.runState = .halted ∨ s.runState = .waiting ∧
      (∀ q, s.boundary.irq = some q → q.nmi = false ∧ s.cicr.getLsbD 4 = false) →
    step s = .next { s with inputs := s.inputs.tail, encsr := s.boundary.encsr.getD s.encsr, stores := [] }

/-- A maskable request is accepted only if CICR bit 4 is 1 and a non-maskable one whatever it holds: at a boundary
of a core that is not halted, a request that is not accepted leaves the step as if there were none, and an
accepted one makes it the interrupt entry (60_exceptions.md R456, R457, R460). That the entry is a step of its own
rests on decision D22 (log entry 21), and that a new ENCSR acts before it and that the step uses up the
environment's entry are the model's choices (log entries 14 and 15). -/
def Obligations.RequestsAreAcceptedByMask : Prop :=
  ∀ (s u : State) (q : IrqRequest) (rest : List Boundary) (e : Option Bool),
    s.runState ≠ .halted → s.inputs = { encsr := e, reset := none, irq := some q } :: rest →
    u = { s with inputs := { encsr := e, reset := none, irq := none } :: rest } →
    (q.nmi = false → s.cicr.getLsbD 4 = false → step s = step u) ∧
    (q.nmi = true ∨ s.cicr.getLsbD 4 = true → step s = Res.outcome (takeInterrupt q s.answered))

/-- Interrupt entry pushes the pc, CSR if ENCSR is 1, and FLAGR, clears CICR bit 4 and continues at the
request's vector, in its segment if ENCSR is 1 (60_exceptions.md R460, R463; the sequence is the spec's own
reconstruction, decision D22, log entry 21; that a push into the register file goes through the register pointer, page
or stack pointer that the push before it set is the model's choice, log entry 36). -/
def Obligations.InterruptEntryPushesTheFrame : Prop :=
  ∀ (s u s1 s2 s3 : State) (q : IrqRequest),
    u = s.answered → s.runState ≠ .halted → s.boundary.reset = none → s.boundary.irq = some q →
    q.nmi = true ∨ s.ien = true →
    u.push16Ok .system u.pc = true → s1 = u.pushed16 .system u.pc →
    (u.encsr = true → s1.push8Ok .system = true) →
    s2 = (if u.encsr then s1.pushed8 .system (u.csr.zeroExtend 8) else s1) →
    s2.push8Ok .system = true → s3 = s2.pushed8 .system s2.flagr →
    step s = .next { s3 with
      cicr := s3.cicr &&& 0xEF
      csr := if u.encsr then q.seg else u.csr
      pc := q.vector
      runState := .running }

/-- An interrupt routine that leaves its frame, the stack pointer and ENCSR as it found them and executes IRET
continues the interrupted program: the pc, FLAGR, CSR and the stack pointer are those of the entry and CICR bit 4
is 1. The system stack is in ram or in registers without a special role, which the routine reaches through the
window of the entry (46_control.md R372, 60_exceptions.md R460, R461; decision D22, log entry 21). -/
def Obligations.IretResumesTheInterruptedProgram : Prop :=
  ∀ (q : IrqRequest) (s t u : State),
    s.frameOk .system (if s.encsr then 4 else 3) → takeInterrupt q s = .ok t →
    u.ssp = t.ssp → u.encsr = s.encsr → u.sspInRegfile = s.sspInRegfile → (s.encsr = false → u.csr = s.csr) →
    (s.sspInRegfile = true → u.rp0 = s.rp0 ∧ u.rp1 = s.rp1 ∧ u.twin = s.twin) →
    (∀ i < (if s.encsr then 4 else 3), u.stackByte .system i = t.stackByte .system i) →
    ∃ v, exec .iret u = .next v ∧ v.pc = s.pc ∧ v.flagr = s.flagr ∧ v.csr = s.csr ∧ v.ssp = s.ssp ∧
      v.ien = true ∧ v.mem = u.mem

/-! ## Registers and memory -/

/-- Working register resolution: the register address 0xD0 + n names register n of the window that RP0 and RP1
select, and an access through a window over group D stops the model (10_state.md R23, R24,
93_implementation_defined.md U1; the stop is the spec's choice, log entry 10). -/
def Obligations.WorkingRegistersLieInTheWindow : Prop :=
  ∀ (s : State) (n : WReg) (p : Byte),
    p.toNat = (if s.twin = false then 16 * (s.rp0.toNat / 2) + n.toNat
      else if n.toNat < 8 then 8 * s.rp0.toNat + n.toNat
      else 8 * s.rp1.toNat + (n.toNat - 8)) →
    (hiNib p = 0xD#4 → readReg (0xD0 + n.zeroExtend 8) s = .error (.unsupportedU1 s.stores) ∧
      ∀ v, writeReg (0xD0 + n.zeroExtend 8) v s = .error (.unsupportedU1 s.stores)) ∧
    (hiNib p ≠ 0xD#4 → readReg (0xD0 + n.zeroExtend 8) s = .ok (s.cell p) ∧
      ∀ v, writeReg (0xD0 + n.zeroExtend 8) v s = .ok (s.setCell p v))

/-- Writing a register changes that register and no other: read back it holds the value (the images of RP0 and
RP1 without their two lowest bits), every register in another place is as before (but for the window bit, which
the images of RP0 and RP1 share), and so is everything that is no register (10_state.md R22, R26, R27;
the images of RP0 and RP1 are log entry 2). -/
def Obligations.RegisterWriteReachesOneRegister : Prop :=
  ∀ (s t : State) (a v : Byte) (j : Nat), j = s.slot (s.addr a) → t = s.setReg a v →
    t.slotByte j = (if j = 232 ∨ j = 233 then v &&& 0xFC else v) ∧
    (∀ k, isSlot k = true → slotsApart j k = true → t.slotByte k = s.slotByte k) ∧
    t = { s with
      phys := t.phys
      pages := t.pages
      rp0 := t.rp0
      rp1 := t.rp1
      twin := t.twin
      ppr := t.ppr
      flagr := t.flagr
      cicr := t.cicr
      ssp := t.ssp
      usp := t.usp }

/-- A memory write is read back at its physical address, leaves every other byte alone, joins the stores of what is
in progress, and changes nothing where there is no ram (20_memory.md R62, R64, R73; no effect outside ram is decision
D6, log entry 8; the list of stores is log entry 16). -/
def Obligations.MemoryReadsBackItsWrites : Prop :=
  ∀ (s t : State) (sp : Space) (a : Word) (v : Byte), t = s.setMemByte sp a v →
    (memKind s.memRegions sp (s.translate sp a) = .ram →
      (∀ role, t.memByte role sp a = v) ∧ t.stores = s.stores ++ [(s.translate sp a, v)]) ∧
    (memKind s.memRegions sp (s.translate sp a) ≠ .ram → t = s) ∧
    (∀ role sp' a' p, p ≠ s.translate sp a → t.physByte role sp' a' p = s.physByte role sp' a' p) ∧
    t = { s with mem := t.mem, stores := t.stores }

/-- A word lies in memory with its high byte at the lower address, whatever the address's parity, and the address
of the second byte wraps (20_memory.md R63, R64, R65; the wrap is decision D13, log entry 23). -/
def Obligations.WordsLieHighByteFirst : Prop :=
  ∀ (s t : State) (sp : Space) (a v : Word) (role : ReadRole), t = s.setMemWord sp a v →
    memKind s.memRegions sp (s.translate sp a) = .ram →
    memKind s.memRegions sp (s.translate sp (a + 1)) = .ram →
    s.translate sp a ≠ s.translate sp (a + 1) →
    (t.memByte role sp a).toNat = v.toNat / 256 ∧ (t.memByte role sp (a + 1)).toNat = v.toNat % 256 ∧
      t.memWord role sp a = v

/-- After SDM memory operands lie in data memory and after SPM in program memory, whose addresses CSR extends: the
physical address is segment times 65536 plus address (10_state.md R38, 20_memory.md R61, R68, R70). -/
def Obligations.OperandSpaceFollowsDp : Prop :=
  ∀ s t : State, (exec .sdm s = .next t → t.opSpace = .data) ∧ (exec .spm s = .next t → t.opSpace = .prog) ∧
    ∀ a : Word, (t.translate .prog a).toNat = 65536 * t.csr.toNat + a.toNat

/-- A flag update writes the flags it names, and leaves the others, bits 1 and 0 of FLAGR and everything else of
the state alone (10_state.md R31). -/
def Obligations.FlagUpdateWritesItsFlags : Prop :=
  ∀ (s : State) (u : FlagUpdate),
    (∀ f, (s.setFlags u).flag f = (u.get f).getD (s.flag f)) ∧
    (s.setFlags u).flagr.getLsbD 1 = s.flagr.getLsbD 1 ∧ (s.setFlags u).flagr.getLsbD 0 = s.flagr.getLsbD 0 ∧
    s.setFlags u = { s with flagr := (s.setFlags u).flagr }

/-! ## What instructions leave alone -/

/-- An instruction leaves every byte of memory alone but those it stores to, whose addresses `Instr.stores`
computes as the instruction does (20_memory.md R74, R67, R69). The stores that it adds to the list of stores go to
these addresses, and a byte is as the last of them left it, or as before (log entry 16). -/
def Obligations.InstructionsStoreOnlyWhereTheySay : Prop :=
  ∀ (i : Instr) (s t : State), exec i s = .next t →
    (∀ (role : ReadRole) (sp : Space) (a : Word) (p : PhysAddr), p ∉ Instr.stores i s →
      t.physByte role sp a p = s.physByte role sp a p) ∧
    ∃ w, t.stores = s.stores ++ w ∧ (∀ e ∈ w, e.1 ∈ Instr.stores i s) ∧
      ∀ p : PhysAddr, Cells.read t.mem p.toNat = (w.reverse.lookup p).getD (Cells.read s.mem p.toNat)

/-- CSR changes only by the far jumps, calls and returns and IRET, the run state only by WFI and HALT, the pc only
by control transfers and the trap of DIV, the hidden state of DIVWS only by DIVWS; ENCSR, the inputs and the
counter of free values by no instruction (10_state.md R30, R38, R40, R42, 44_muldiv.md R342). -/
def Obligations.ControlStateChangesOnlyByItsInstructions : Prop :=
  ∀ (i : Instr) (s t : State), exec i s = .next t →
    (Instr.writesCsr i = false → t.csr = s.csr) ∧ (Instr.writesRunState i = false → t.runState = s.runState) ∧
    (Instr.writesPc i = false → t.pc = s.pc) ∧
    ((∀ h l v, i ≠ .divws h l v) → t.divwsHidden = s.divwsHidden) ∧
    t.encsr = s.encsr ∧ t.inputs = s.inputs ∧ t.fresh = s.fresh

/-- An instruction that writes at most one register beside flags (`Instr.written`) leaves every other register
alone, FLAGR too if it writes no flags. -/
def Obligations.OtherRegistersStay : Prop :=
  ∀ (i : Instr) (s t : State) (as : List Byte), Instr.written i s = some as → exec i s = .next t →
    ∀ k, isSlot k = true → (∀ a ∈ as, slotsApart (s.slot (s.addr a)) k = true) →
      (k ≠ 231 ∨ Instr.keepsFlags i = true) → t.slotByte k = s.slotByte k

/-! ## Two operands -/

/-- The ten two-operand byte instructions in all their forms: pre-decrement, operands, operation, store (not for TCM,
CP, TM), flags, post-increment, in this order, wherever the registers that the form names are reachable (41_alu2.md
R201, R203, R210 to R219). The order of overlapping writes is the spec's choice, log entry 19. That a post-increment
goes through the window or page which the store of the same instruction has just set (ADD R232,(rr4)+) is the model's
choice, log entry 36: R501 leaves it open. -/
def Obligations.ByteOperationsComplete : Prop :=
  ∀ (op : AluOp) (f : AluByteForm) (s s1 s2 s3 : State) (r : ByteResult),
    AluByteForm.startOk f s = true → s1 = AluByteForm.started f s →
    AluByteForm.readable f s1 = true → s1.byteOk (AluByteForm.loc f s1) = true →
    r = aluOp8 op (s1.byteAt (AluByteForm.loc f s1)) (AluByteForm.value f s1) (s1.flag .c) →
    s2 = (if aluStores op then s1.putByte (AluByteForm.loc f s1) r.value else s1) →
    s3 = s2.setFlags r.flags → AluByteForm.finishOk f s3 = true →
    exec (Instr.ofAluByte op f) s = .next (AluByteForm.finished f s3)

/-- The ten two-operand word instructions in all their forms, where the registers that the form names
are reachable and a pair address taken from a register is even;
D and H are free after an addition or subtraction (41_alu2.md R202, R203, R220 to R229; the free flags are log entry 5,
the order of overlapping writes is the spec's choice, log entry 19). That the second byte of a stored pair and a
post-increment go through the window or page which the same instruction has just set is the model's choice, log entry
36: 70_reset_and_hazards.md R501 leaves it open. -/
def Obligations.WordOperationsComplete : Prop :=
  ∀ (op : AluOp) (f : AluWordForm) (s s1 s2 s3 : State) (r : WordResult),
    AluWordForm.startOk f s = true → s1 = AluWordForm.started f s →
    AluWordForm.readable f s1 = true → AluWordForm.even f s1 = true → s1.wordOk (AluWordForm.loc f s1) = true →
    r = aluOp16 op (s1.wordAt (AluWordForm.loc f s1)) (AluWordForm.value f s1) (s1.flag .c)
      (s1.freeFlag .d) (s1.freeFlag .h) →
    (aluStores op = true → s1.putWordOk (AluWordForm.loc f s1) r.value = true) →
    s2 = (if aluStores op then s1.putWord (AluWordForm.loc f s1) r.value else s1) →
    s3 = s2.setFlags r.flags → AluWordForm.finishOk f s3 = true →
    exec (Instr.ofAluWord op f) s = .next (AluWordForm.finished f s3)

/-- The result and flags of an addition, for bytes and words; D and H of a word are the values given (41_alu2.md R204;
the readings of V and H are the spec's own, log entry 35). -/
def Obligations.AdditionFlags : Prop :=
  (∀ (a b : Byte) (c : Bool) (r : ByteResult), r = add8 a b c →
    r.value.toNat = (a.toNat + b.toNat + c.toNat) % 256 ∧
    r.flags.c = some (decide (a.toNat + b.toNat + c.toNat ≥ 256)) ∧
    r.flags.z = some (decide (r.value = 0)) ∧ r.flags.s = some (r.value.getLsbD 7) ∧
    r.flags.v = some (decide (a.getLsbD 7 = b.getLsbD 7 ∧ r.value.getLsbD 7 ≠ a.getLsbD 7)) ∧
    r.flags.d = some false ∧
    r.flags.h = some (decide (a.toNat % 16 + b.toNat % 16 + c.toNat ≥ 16))) ∧
  (∀ (a b : Word) (c : Bool) (d h : Option Bool) (r : WordResult), r = add16 a b c d h →
    r.value.toNat = (a.toNat + b.toNat + c.toNat) % 65536 ∧
    r.flags.c = some (decide (a.toNat + b.toNat + c.toNat ≥ 65536)) ∧
    r.flags.z = some (decide (r.value = 0)) ∧ r.flags.s = some (r.value.getLsbD 15) ∧
    r.flags.v = some (decide (a.getLsbD 15 = b.getLsbD 15 ∧ r.value.getLsbD 15 ≠ a.getLsbD 15)) ∧
    r.flags.d = d ∧ r.flags.h = h)

/-- The result and flags of a subtraction and of a comparison, for bytes and words; a comparison leaves D and H
(41_alu2.md R205; the readings of V and H are the spec's own, log entry 35). -/
def Obligations.SubtractionFlags : Prop :=
  (∀ (a b : Byte) (c : Bool) (r : ByteResult), r = sub8 a b c →
    (r.value.toNat : Int) = ((a.toNat : Int) - b.toNat - c.toNat) % 256 ∧
    r.flags.c = some (decide ((a.toNat : Int) - b.toNat - c.toNat < 0)) ∧
    r.flags.z = some (decide (r.value = 0)) ∧ r.flags.s = some (r.value.getLsbD 7) ∧
    r.flags.v = some (decide (a.getLsbD 7 ≠ b.getLsbD 7 ∧ r.value.getLsbD 7 ≠ a.getLsbD 7)) ∧
    r.flags.d = some true ∧
    r.flags.h = some (decide (((a.toNat % 16 : Nat) : Int) - (b.toNat % 16 : Nat) - c.toNat < 0)) ∧
    (c = false → cmp8 a b = { r with flags := { r.flags with d := none, h := none } })) ∧
  (∀ (a b : Word) (c : Bool) (d h : Option Bool) (r : WordResult), r = sub16 a b c d h →
    (r.value.toNat : Int) = ((a.toNat : Int) - b.toNat - c.toNat) % 65536 ∧
    r.flags.c = some (decide ((a.toNat : Int) - b.toNat - c.toNat < 0)) ∧
    r.flags.z = some (decide (r.value = 0)) ∧ r.flags.s = some (r.value.getLsbD 15) ∧
    r.flags.v = some (decide (a.getLsbD 15 ≠ b.getLsbD 15 ∧ r.value.getLsbD 15 ≠ a.getLsbD 15)) ∧
    r.flags.d = d ∧ r.flags.h = h ∧ (∀ c', aluOp16 .cp a b c' d h = sub16 a b false none none))

/-- Which operation each of the twenty two-operand instructions carries out, on the destination, the source and C:
ADD and SUB without C, ADC and SBC with it; CP is a subtraction whose result goes nowhere; OR, AND, XOR, TCM (NOT
destination AND source) and TM (AND) work on each bit, write Z and S from the result and V as 0, and leave C, D and
H. Exactly TCM, CP and TM store nothing (41_alu2.md R206, R210 to R229). -/
def Obligations.TwoOperandOperations : Prop :=
  (∀ op : AluOp, aluStores op = false ↔ op = .tcm ∨ op = .cp ∨ op = .tm) ∧
  (∀ f : AluByteForm, [AluOp.or, .and, .sbc, .adc, .add, .sub, .xor, .tcm, .cp, .tm].map (Instr.ofAluByte · f) =
    [.or f, .and f, .sbc f, .adc f, .add f, .sub f, .xor f, .tcm f, .cp f, .tm f]) ∧
  (∀ f : AluWordForm, [AluOp.or, .and, .sbc, .adc, .add, .sub, .xor, .tcm, .cp, .tm].map (Instr.ofAluWord · f) =
    [.orw f, .andw f, .sbcw f, .adcw f, .addw f, .subw f, .xorw f, .tcmw f, .cpw f, .tmw f]) ∧
  (∀ (d v : Byte) (c : Bool),
    aluOp8 .add d v c = add8 d v false ∧ aluOp8 .adc d v c = add8 d v c ∧
    aluOp8 .sub d v c = sub8 d v false ∧ aluOp8 .sbc d v c = sub8 d v c ∧ aluOp8 .cp d v c = cmp8 d v ∧
    (∀ j : Nat, j < 8 →
      (aluOp8 .or d v c).value.getLsbD j = (d.getLsbD j || v.getLsbD j) ∧
      (aluOp8 .and d v c).value.getLsbD j = (d.getLsbD j && v.getLsbD j) ∧
      (aluOp8 .xor d v c).value.getLsbD j = (d.getLsbD j ^^ v.getLsbD j) ∧
      (aluOp8 .tcm d v c).value.getLsbD j = (!d.getLsbD j && v.getLsbD j) ∧
      (aluOp8 .tm d v c).value.getLsbD j = (d.getLsbD j && v.getLsbD j)) ∧
    (∀ (op : AluOp) (r : ByteResult), op ∈ [AluOp.or, .and, .xor, .tcm, .tm] → r = aluOp8 op d v c →
      r.flags.z = some (decide (r.value = 0)) ∧ r.flags.s = some (r.value.getLsbD 7) ∧ r.flags.v = some false ∧
      r.flags.c = none ∧ r.flags.d = none ∧ r.flags.h = none)) ∧
  (∀ (d v : Word) (c : Bool) (fd fh : Option Bool),
    aluOp16 .add d v c fd fh = add16 d v false fd fh ∧ aluOp16 .adc d v c fd fh = add16 d v c fd fh ∧
    aluOp16 .sub d v c fd fh = sub16 d v false fd fh ∧ aluOp16 .sbc d v c fd fh = sub16 d v c fd fh ∧
    aluOp16 .cp d v c fd fh = sub16 d v false none none ∧
    (∀ j : Nat, j < 16 →
      (aluOp16 .or d v c fd fh).value.getLsbD j = (d.getLsbD j || v.getLsbD j) ∧
      (aluOp16 .and d v c fd fh).value.getLsbD j = (d.getLsbD j && v.getLsbD j) ∧
      (aluOp16 .xor d v c fd fh).value.getLsbD j = (d.getLsbD j ^^ v.getLsbD j) ∧
      (aluOp16 .tcm d v c fd fh).value.getLsbD j = (!d.getLsbD j && v.getLsbD j) ∧
      (aluOp16 .tm d v c fd fh).value.getLsbD j = (d.getLsbD j && v.getLsbD j)) ∧
    (∀ (op : AluOp) (r : WordResult), op ∈ [AluOp.or, .and, .xor, .tcm, .tm] → r = aluOp16 op d v c fd fh →
      r.flags.z = some (decide (r.value = 0)) ∧ r.flags.s = some (r.value.getLsbD 15) ∧ r.flags.v = some false ∧
      r.flags.c = none ∧ r.flags.d = none ∧ r.flags.h = none))

/-- V after an addition or subtraction says that the signed result does not fit the operand width
(41_alu2.md R204, R205: the spec's own reading of the word "overflow"). -/
def Obligations.OverflowIsSignedOverflow : Prop :=
  (∀ (a b : Byte) (c : Bool),
    ((add8 a b c).flags.v = some true ↔
      a.toInt + b.toInt + c.toNat < -128 ∨ 127 < a.toInt + b.toInt + c.toNat) ∧
    ((sub8 a b c).flags.v = some true ↔
      a.toInt - b.toInt - c.toNat < -128 ∨ 127 < a.toInt - b.toInt - c.toNat)) ∧
  (∀ (a b : Word) (c : Bool) (d h : Option Bool),
    ((add16 a b c d h).flags.v = some true ↔
      a.toInt + b.toInt + c.toNat < -32768 ∨ 32767 < a.toInt + b.toInt + c.toNat) ∧
    ((sub16 a b c d h).flags.v = some true ↔
      a.toInt - b.toInt - c.toNat < -32768 ∨ 32767 < a.toInt - b.toInt - c.toNat))

/-- After CP the condition codes compare the operands, signed and unsigned (10_state.md R33, R34,
41_alu2.md R217). -/
def Obligations.ConditionsCompareAfterCp : Prop :=
  ∀ (s t : State) (a b : Byte), t = s.setFlags (cmp8 a b).flags →
    (t.cond 0x1 = true ↔ a.toInt < b.toInt) ∧ (t.cond 0x2 = true ↔ a.toInt ≤ b.toInt) ∧
    (t.cond 0x9 = true ↔ b.toInt ≤ a.toInt) ∧ (t.cond 0xA = true ↔ b.toInt < a.toInt) ∧
    (t.cond 0x7 = true ↔ a.toNat < b.toNat) ∧ (t.cond 0x3 = true ↔ a.toNat ≤ b.toNat) ∧
    (t.cond 0xF = true ↔ b.toNat ≤ a.toNat) ∧ (t.cond 0xB = true ↔ b.toNat < a.toNat) ∧
    (t.cond 0x6 = true ↔ a = b) ∧ (t.cond 0xE = true ↔ a ≠ b)

/-! ## Loads -/

/-- LD in all its forms: pre-decrement, store, post-increments, wherever the registers that the form names are
reachable (40_load.md R140, R141 to R170; the order of overlapping writes is the spec's choice, log entry 19). That a
post-increment goes through the window or page which the store of the same instruction has just set is the model's
choice, log entry 36: 70_reset_and_hazards.md R501 leaves it open. -/
def Obligations.LdCompletes : Prop :=
  ∀ (f : LdForm) (s s1 s2 : State),
    LdForm.startOk f s = true → s1 = LdForm.started f s →
    LdForm.readable f s1 = true → s1.byteOk (LdForm.loc f s1) = true →
    s2 = s1.putByte (LdForm.loc f s1) (LdForm.value f s1) → LdForm.finishOk f s2 = true →
    exec (.ld f) s = .next (LdForm.finished f s2)

/-- LDW in all its forms, where the registers that the form names are reachable and a pair address taken from a
register is even (40_load.md R140, R176 to R199; the order of overlapping writes is the spec's choice, log entry 19).
That the second byte of a stored pair and a post-increment go through the window or page which the same instruction
has just set is the model's choice, log entry 36: 70_reset_and_hazards.md R501 leaves it open. -/
def Obligations.LdwCompletes : Prop :=
  ∀ (f : LdwForm) (s s1 s2 : State),
    LdwForm.startOk f s = true → s1 = LdwForm.started f s →
    LdwForm.readable f s1 = true → LdwForm.even f s1 = true →
    s1.putWordOk (LdwForm.loc f s1) (LdwForm.value f s1) = true →
    s2 = s1.putWord (LdwForm.loc f s1) (LdwForm.value f s1) → LdwForm.finishOk f s2 = true →
    exec (.ldw f) s = .next (LdwForm.finished f s2)

/-- A word instruction whose register gives an odd pair address stops the model (93_implementation_defined.md U2;
for the load N(rx) by the same reading, log entry 10). -/
def Obligations.OddPairAddressStops : Prop :=
  ∀ (s : State) (n : Byte) (r x : WReg) (rr : RegPair) (p : WPair),
    (s.wOk r = true → byteFlag (s.w r) = true →
      (∀ op, exec (Instr.ofAluWord op (.k (.w7 r rr))) s = .refused .unsupportedU2 ∧
        exec (Instr.ofAluWord op (.k (.w8 rr r))) s = .refused .unsupportedU2) ∧
      exec (.ldw (.k (.w7 r rr))) s = .refused .unsupportedU2 ∧
      exec (.ldw (.k (.w8 rr r))) s = .refused .unsupportedU2) ∧
    (s.wOk x = true → byteFlag (n + s.w x) = true →
      exec (.ldw (.deStore n x p)) s = .refused .unsupportedU2 ∧
      exec (.ldw (.deLoad p n x)) s = .refused .unsupportedU2)

/-- LDPP, LDDP, LDPD, LDDD copy a byte between the spaces that their names give, destination first, and increment
both pointers, whatever FLAGR bit 0 holds (40_load.md R171 to R175, 20_memory.md R69; for equal pairs the order of the
increments is the spec's choice, log entry 19). That the source pointer is incremented through the window or page which
the increment of the destination pointer has just set is the model's choice, log entry 36: 70_reset_and_hazards.md R501
leaves it open. -/
def Obligations.SpaceCopiesComplete : Prop :=
  ∀ (i : Instr) (spd sps : Space) (rrd rrs : WPair) (s s1 : State),
    (i, spd, sps) ∈ [(Instr.ldpp rrd rrs, Space.prog, Space.prog), (.lddp rrd rrs, .data, .prog),
      (.ldpd rrd rrs, .prog, .data), (.lddd rrd rrs, .data, .data)] →
    s.wwOk rrd = true → s.wwOk rrs = true → s1 = s.setMemByte spd (s.ww rrd) (s.memByte .source sps (s.ww rrs)) →
    s1.bumpOk rrd 1 = true → (s1.bumped rrd 1).bumpOk rrs 1 = true →
    exec i s = .next ((s1.bumped rrd 1).bumped rrs 1)

/-! ## One operand -/

/-- The one-operand byte instructions, direct and indirect: the new value and the flags
(42_alu1.md R260, R262, R263, R266 to R268, R270 to R274, R277). C and V are free after SWAP, V after DA, whose
value and C are those of `da8` (log entries 5, 22 and 35). -/
def Obligations.ByteUnariesComplete : Prop :=
  ∀ (t : ByteTarget) (s : State) (a d : Byte) (c : Bool),
    s.targetReachable t = true → a = s.target t → d = s.reg a → c = s.flag .c →
    exec (.inc t) s = .next ((s.setReg a (d + 1)).setFlags (byteFlags (d + 1) none (some (d == 0x7F)))) ∧
    exec (.dec t) s = .next ((s.setReg a (d - 1)).setFlags (byteFlags (d - 1) none (some (d == 0x80)))) ∧
    exec (.clr t) s = .next (s.setReg a 0) ∧
    exec (.cpl t) s = .next ((s.setReg a (d ^^^ 0xFF)).setFlags (byteFlags (d ^^^ 0xFF) none (some false))) ∧
    exec (.swap t) s = .next ((s.setReg a (d <<< 4 ||| d >>> 4)).setFlags
      (byteFlags (d <<< 4 ||| d >>> 4) (s.freeFlag .c) (s.freeFlag .v))) ∧
    (∀ r, r = d <<< 1 ||| (BitVec.ofBool c).zeroExtend 8 → exec (.rlc t) s =
      .next ((s.setReg a r).setFlags (byteFlags r (some (d.getLsbD 7)) (some (r.getLsbD 7 != d.getLsbD 7))))) ∧
    (∀ r, r = d >>> 1 ||| (BitVec.ofBool c).zeroExtend 8 <<< 7 → exec (.rrc t) s =
      .next ((s.setReg a r).setFlags (byteFlags r (some (d.getLsbD 0)) (some (r.getLsbD 7 != d.getLsbD 7))))) ∧
    exec (.rol t) s = .next ((s.setReg a (d.rotateLeft 1)).setFlags
      (byteFlags (d.rotateLeft 1) (some (d.getLsbD 7)) (some (d.getLsbD 6 != d.getLsbD 7)))) ∧
    exec (.ror t) s = .next ((s.setReg a (d.rotateRight 1)).setFlags
      (byteFlags (d.rotateRight 1) (some (d.getLsbD 0)) (some (d.getLsbD 0 != d.getLsbD 7)))) ∧
    exec (.sra t) s = .next ((s.setReg a (d.sshiftRight 1)).setFlags
      (byteFlags (d.sshiftRight 1) (some (d.getLsbD 0)) (some false))) ∧
    (∀ r, r = da8 d c (s.flag .d) (s.flag .h) (s.freeFlag .v) → exec (.da t) s =
      .next ((s.setReg a r.value).setFlags (byteFlags r.value r.flags.c (s.freeFlag .v))))

/-- The one-operand word instructions: the new value and the flags (42_alu1.md R261, R264, R265, R275, R276, R278).
Z is free after the rotates (log entries 5 and 35). A pair write whose first byte sets a register pointer or PPR goes on
through it, the model's choice, log entry 36. -/
def Obligations.WordUnariesComplete : Prop :=
  ∀ (rr : RegPair) (s : State) (d : Word) (c : Bool),
    s.pairReachable rr = true → d = s.pair rr → c = s.flag .c →
    (s.pairSettable rr (d + 1) = true → exec (.incw rr) s =
      .next ((s.setPair rr (d + 1)).setFlags (wordFlags (d + 1) none (some (d == 0x7FFF))))) ∧
    (s.pairSettable rr (d - 1) = true → exec (.decw rr) s =
      .next ((s.setPair rr (d - 1)).setFlags (wordFlags (d - 1) none (some (d == 0x8000))))) ∧
    (∀ r, r = d <<< 1 ||| (BitVec.ofBool c).zeroExtend 16 → s.pairSettable rr r = true → exec (.rlcw rr) s =
      .next ((s.setPair rr r).setFlags { wordFlags r (some (d.getLsbD 15))
        (some (r.getLsbD 15 != d.getLsbD 15)) with z := s.freeFlag .z })) ∧
    (∀ r, r = d >>> 1 ||| (BitVec.ofBool c).zeroExtend 16 <<< 15 → s.pairSettable rr r = true → exec (.rrcw rr) s =
      .next ((s.setPair rr r).setFlags { wordFlags r (some (d.getLsbD 0))
        (some (r.getLsbD 15 != d.getLsbD 15)) with z := s.freeFlag .z })) ∧
    (s.pairSettable rr (d.sshiftRight 1) = true → exec (.sraw rr) s =
      .next ((s.setPair rr (d.sshiftRight 1)).setFlags
        (wordFlags (d.sshiftRight 1) (some (d.getLsbD 0)) (some false))))

/-- After the addition of two-digit BCD numbers with carry, DA gives the two digits of the sum and C the hundreds;
after a subtraction with borrow, the digits of the difference modulo 100 and C the borrow (42_alu1.md R270; sums
outside the manual's table follow the spec's extension D19, log entry 22). -/
def Obligations.DecimalAdjustGivesBcdResults : Prop :=
  ∀ (x y : Nat) (c : Bool) (r : ByteResult) (fc fd fh : Bool) (v : Option Bool), x < 100 → y < 100 →
    r.flags.c = some fc → r.flags.d = some fd → r.flags.h = some fh →
    (r = add8 (bcd x) (bcd y) c →
      (da8 r.value fc fd fh v).value = bcd ((x + y + c.toNat) % 100) ∧
      (da8 r.value fc fd fh v).flags.c = some (decide (100 ≤ x + y + c.toNat))) ∧
    (r = sub8 (bcd x) (bcd y) c →
      (da8 r.value fc fd fh v).value = bcd ((100 + x - y - c.toNat) % 100) ∧
      (da8 r.value fc fd fh v).flags.c = some (decide (x < y + c.toNat)))

/-! ## Stacks -/

/-- PUSH and PUSHU push a byte, PUSHW, PUSHUW, PEA and PEAU a word or an effective address, high byte at the lower
place, on a stack in memory or in the register file; the operand is read before the pointer moves
(43_stack.md R300, R302, R305 to R308, R313, R314; the order is decision R304 (d), log entry 19; that the second byte
goes through the register pointer, page or stack pointer that the first one set is the model's choice, log entry 36). -/
def Obligations.PushesComplete : Prop :=
  ∀ (k : Stack) (s : State),
    (∀ f, s.pushReachable f = true → s.push8Ok k = true →
      exec (Instr.ofPush k f) s = .next (s.pushed8 k (s.pushValue f))) ∧
    (∀ i w, Instr.pushedWord i s = some (k, w) → s.push16Ok k w = true → exec i s = .next (s.pushed16 k w))

/-- POP, POPU, POPW, POPUW take the top of the stack and write it after the pointer has moved
(43_stack.md R301, R303, R309 to R312; the order is decision R304 (d), log entry 19; that the second byte of a pair goes
through the register pointer or page that the first one set is the model's choice, log entry 36). -/
def Obligations.PopsComplete : Prop :=
  ∀ (k : Stack) (s s1 : State),
    (∀ t a, (∀ r, t = .indirect r → s.reachable r = true) → a = s.target t → s.pop8Ok k = true →
      s1 = s.dropped k 1 → s1.reachable a = true →
      exec (Instr.ofPop k t) s = .next (s1.setReg a (s.top8 k))) ∧
    (∀ rr, s.pop16Ok k = true → s1 = s.dropped k 2 → s1.pairSettable rr (s.top16 k) = true →
      exec (Instr.ofPopw k rr) s = .next (s1.setPair rr (s.top16 k)))

/-- LINK and LINKU save the frame pointer, set it to the new top and lower the pointer by N; UNLINK and UNLINKU set
the pointer to the frame pointer and pop the saved one. With the stack in the register file only low bytes take part
and the high byte of the pointer is free (43_stack.md R304, R315 to R318, 93_implementation_defined.md U4; log
entries 7 and 34). That each register access goes through the register pointers and the page in force after the writes
before it is the model's choice, log entry 36. -/
def Obligations.LinksAndUnlinksComplete : Prop :=
  ∀ (k : Stack) (rr : RegPair) (n : Byte) (s s1 s2 : State),
    (s.inRegfile k = false → s.pairReachable rr = true → s1 = s.pushed16 k (s.pair rr) →
      s1.pairSettable rr (s1.sp k) = true → s2 = s1.setPair rr (s1.sp k) →
      exec (Instr.ofLink k rr n) s = .next (s2.setSp k (s2.sp k - n.zeroExtend 16))) ∧
    (s.inRegfile k = true → s.reachable (rr + 1) = true → s.push8Ok k = true →
      s1 = s.pushed8 k (s.reg (rr + 1)) → s1.reachable (rr + 1) = true →
      s2 = s1.setReg (rr + 1) (s1.spLow k) →
      exec (Instr.ofLink k rr n) s = .next (s2.setSp k (word (Config.freeStackHigh s.fresh) (s2.spLow k - n)))) ∧
    (s.inRegfile k = false → s.pairReachable rr = true → s1 = s.setSp k (s.pair rr) → s2 = s1.dropped k 2 →
      s2.pairSettable rr (s1.top16 k) = true →
      exec (Instr.ofUnlink k rr) s = .next (s2.setPair rr (s1.top16 k))) ∧
    (s.inRegfile k = true → s.reachable (rr + 1) = true → s1 = s.setSpLow k (s.reg (rr + 1)) →
      s1.pop8Ok k = true → s1.reachable (rr + 1) = true →
      s2 = (s1.dropped k 1).setReg (rr + 1) (s1.top8 k) →
      exec (Instr.ofUnlink k rr) s = .next (s2.setSp k (word (Config.freeStackHigh s.fresh) (s2.spLow k))))

/-- What is pushed onto a stack in ram, or in registers without a special role, comes back with the next pop of its
size, which restores the pointer; bytes and words, both stacks (43_stack.md R300 to R303). -/
def Obligations.PopUndoesPush : Prop :=
  ∀ (k : Stack) (s t : State),
    (∀ (f : PushForm) (r : Reg), s.frameOk k 1 → s.pushReachable f = true → s.reachable r = true →
      exec (Instr.ofPush k f) s = .next t →
      exec (Instr.ofPop k (.direct r)) t = .next ((t.setSp k (s.sp k)).setReg r (s.pushValue f))) ∧
    (∀ (i : Instr) (w : Word) (rr : RegPair), s.frameOk k 2 → Instr.pushedWord i s = some (k, w) →
      s.pairSettable rr w = true → exec i s = .next t →
      exec (Instr.ofPopw k rr) t = .next ((t.setSp k (s.sp k)).setPair rr w))

/-- UNLINK undoes LINK and UNLINKU undoes LINKU, on a stack in ram or in registers without a special role, whatever
the size of the local area and wherever the pointer was moved in between, for a frame pointer below group D: the
pointer and the frame pointer come back, with the stack in the register file their low bytes
(43_stack.md R304, R315 to R318). -/
def Obligations.UnlinkUndoesLink : Prop :=
  ∀ (k : Stack) (rr : RegPair) (n : Byte) (p : Word) (s t : State),
    RegPair.wf rr = true → rr.toNat < 208 → exec (Instr.ofLink k rr n) s = .next t →
    (s.inRegfile k = false → s.frameOk k 2 →
      ∃ u, exec (Instr.ofUnlink k rr) (t.setSp k p) = .next u ∧ u.sp k = s.sp k ∧ u.pair rr = s.pair rr ∧
        u.mem = t.mem) ∧
    (s.inRegfile k = true → s.frameOk k 1 → s.addr (s.spLow k - 1) ≠ rr + 1 →
      ∃ u, exec (Instr.ofUnlink k rr) (t.setSp k p) = .next u ∧ u.spLow k = s.spLow k ∧
        u.reg (rr + 1) = s.reg (rr + 1) ∧ u.mem = t.mem)

/-! ## Multiplication and division -/

/-- MUL multiplies the low byte of the pair by the register into the pair; C is bit 0 of the product, Z and V say
that its high and its low byte are 0, D is 0, H is free (44_muldiv.md R340; the reading of the operands as
unsigned is log entry 31; that the second byte goes through the register pointer or page that the first one set is the
model's choice, log entry 36). -/
def Obligations.MulCompletes : Prop :=
  ∀ (rrd : WPair) (rs : WReg) (p : Word) (s : State), WPair.wf rrd = true →
    s.wOk (rrd + 1) = true → s.wOk rs = true →
    p.toNat = (s.w (rrd + 1)).toNat * (s.w rs).toNat → s.pairSettable (wregAddr rrd) p = true →
    exec (.mul rrd rs) s = .next ((s.setPair (wregAddr rrd) p).setFlags
      { c := some (p.getLsbD 0), z := some (decide (p.toNat / 256 = 0)), s := some (p.getLsbD 15)
        v := some (decide (p.toNat % 256 = 0)), d := some false, h := s.freeFlag .h })

/-- DIV with a quotient that fits a byte puts the remainder into the high and the quotient into the low register of
the pair; C and D are 1, Z and S say that quotient and remainder are 0, V and H are free. With a quotient above
255 it changes flags only: C is 0, D is 1, the others are free (44_muldiv.md R341; unsigned operands are log entry 31,
free flags log entry 5; that the second register is reached through the register pointer or page that the first write
set is the model's choice, log entry 36). -/
def Obligations.DivCompletes : Prop :=
  ∀ (rrd : WPair) (rs : WReg) (n d : Nat) (s : State), WPair.wf rrd = true →
    s.wwOk rrd = true → s.wOk rs = true →
    n = (s.ww rrd).toNat → d = (s.w rs).toNat →
    (∀ (q m : Byte) (s1 : State), n = q.toNat * d + m.toNat → m.toNat < d →
      s1 = s.setReg (wregAddr rrd) m → s1.wOk (rrd + 1) = true →
      exec (.div rrd rs) s = .next ((s1.setReg (wregAddr (rrd + 1)) q).setFlags
        { c := some true, z := some (decide (q = 0)), s := some (decide (m = 0)), v := s.freeFlag .v
          d := some true, h := s.freeFlag .h })) ∧
    (0 < d → 256 * d ≤ n →
      exec (.div rrd rs) s = .next (s.setFlags
        { c := some false, z := s.freeFlag .z, s := s.freeFlag .s, v := s.freeFlag .v, d := some true
          h := s.freeFlag .h }))

/-- DIV by zero is a call: it pushes the address after the DIV on the system stack and continues at the address in
program locations 2 and 3 of segment 0, with CSR, the operands and every flag as they were
(60_exceptions.md R452, R453; the segment and the untouched state are decisions D14 and D15, log entry 20; that the
second byte of a push into the register file goes through what the first one set is the model's choice, log entry
36). -/
def Obligations.DivByZeroTraps : Prop :=
  ∀ (rrd : WPair) (rs : WReg) (s t : State) (v : Word), s.wwOk rrd = true → s.wOk rs = true → s.w rs = 0 →
    s.push16Ok .system s.pc = true → t = s.pushed16 .system s.pc →
    v = word (t.physByte .vector .prog 2 0x000002) (t.physByte .vector .prog 3 0x000003) →
    exec (.div rrd rs) s = .next { t with pc := v }

/-- DIVWS writes what the open step parameter says into the two dividend pairs, sets Z, clears S, V and H and
leaves C and D and the divisor pair to themselves. With the high pair below the divisor, sixteen DIVWS and an RLCW on
the low pair leave the remainder in the high pair, the quotient but for its bit 0 in the low pair, and the divisor; bit
0 of the low pair is the C that DIVWS left alone and RLCW shifted in (44_muldiv.md R342; the step is decision D21). That
bit 0 is the old C is the model's choice, log entry 9: the contract of R342 asks for bit 0 of the quotient there, as
vector M19 does (0x5555 from C = 0, where the model leaves 0x5554), and 'C unaffected' of the same rule excludes it.
That the rest holds for every C on entry is the model's choice too, log entry 9: R342 leaves open whether C = 0 is
needed. That the second write goes through the register pointer or page that the first one set is log entry 36, the
model's choice as well. -/
def Obligations.DivwsCompletes : Prop :=
  (∀ (rrh rrl : WPair) (rrs : RegPair) (s s1 s2 : State) (r : Word × Word × Nat),
    s.wwOk rrh = true → s.wwOk rrl = true → s.pairReachable rrs = true →
    r = Config.divwsStep (s.ww rrh) (s.ww rrl) (s.pair rrs) (s.flag .c) s.divwsHidden →
    s.pairSettable (wregAddr rrh) r.1 = true → s1 = s.setPair (wregAddr rrh) r.1 →
    s1.pairSettable (wregAddr rrl) r.2.1 = true →
    s2 = (s1.setPair (wregAddr rrl) r.2.1).setFlags
      { z := some true, s := some false, v := some false, h := some false } →
    exec (.divws rrh rrl rrs) s = .next { s2 with divwsHidden := r.2.2 }) ∧
  (∀ (rrh rrl : WPair) (rrs : RegPair) (s : State) (n v : Nat) (pcs : Nat → Word) (counts : Nat → Nat)
      (inputs : Nat → List Boundary),
    (∀ a ∈ [wregAddr rrh, wregAddr rrh + 1, wregAddr rrl, wregAddr rrl + 1, rrs, rrs + 1], s.ordinary a = true) →
    ([wregAddr rrh, wregAddr rrh + 1, wregAddr rrl, wregAddr rrl + 1, rrs, rrs + 1].map s.addr).Nodup →
    n = 65536 * (s.ww rrh).toNat + (s.ww rrl).toNat → v = (s.pair rrs).toNat → (s.ww rrh).toNat < v →
    ∃ (t : Nat → State) (u : State), t 0 = s ∧
      (∀ i < 16, exec (.divws rrh rrl rrs)
        { t i with pc := pcs i, fresh := counts i, inputs := inputs i } = .next (t (i + 1))) ∧
      exec (.rlcw (wregAddr rrl)) { t 16 with pc := pcs 16, fresh := counts 16, inputs := inputs 16 } = .next u ∧
      (u.ww rrh).toNat = n % v ∧ (u.ww rrl).toNat = 2 * (n / v / 2) + (s.flag .c).toNat ∧
      u.pair rrs = s.pair rrs)

/-! ## Bits -/

/-- BAND, BOR, BXOR, BLD and BSET, BRES, BCPL write one bit of the destination register and no flag
(45_boolean.md R350 to R353, R355 to R358). -/
def Obligations.BitWritesComplete : Prop :=
  ∀ (bd bs : BitVec 3) (rd rs : WReg) (s : State) (x y : Bool) (r : Bool → Byte), s.wOk rd = true →
    x = (s.w rs).getLsbD bs.toNat → y = (s.w rd).getLsbD bd.toNat →
    (∀ (z : Bool) (j : Nat), j < 8 →
      (r z).getLsbD j = if j = bd.toNat then z else (s.w rd).getLsbD j) →
    (s.wOk rs = true →
    exec (.band .plain bd rd bs rs) s = .next (s.setReg (wregAddr rd) (r (y && x))) ∧
    exec (.band .complemented bd rd bs rs) s = .next (s.setReg (wregAddr rd) (r (y && !x))) ∧
    exec (.bor .plain bd rd bs rs) s = .next (s.setReg (wregAddr rd) (r (y || x))) ∧
    exec (.bor .complemented bd rd bs rs) s = .next (s.setReg (wregAddr rd) (r (y || !x))) ∧
    exec (.bxor .plain bd rd bs rs) s = .next (s.setReg (wregAddr rd) (r (y ^^ x))) ∧
    exec (.bxor .complemented bd rd bs rs) s = .next (s.setReg (wregAddr rd) (r (y ^^ !x))) ∧
    exec (.bld .plain bd rd bs rs) s = .next (s.setReg (wregAddr rd) (r x)) ∧
    exec (.bld .complemented bd rd bs rs) s = .next (s.setReg (wregAddr rd) (r (!x)))) ∧
    exec (.bset bd rd) s = .next (s.setReg (wregAddr rd) (r true)) ∧
    exec (.bres bd rd) s = .next (s.setReg (wregAddr rd) (r false)) ∧
    exec (.bcpl bd rd) s = .next (s.setReg (wregAddr rd) (r (!y)))

/-- BTSET sets one bit of a register or of a memory byte; Z says that the bit was 0, S that it was bit 7 and 1, V is
0 (45_boolean.md R354). -/
def Obligations.BtsetCompletes : Prop :=
  ∀ (b : BitVec 3) (s : State),
    (∀ (rd : WReg) (d : Byte), s.wOk rd = true → d = s.w rd →
      exec (.btset (.reg b rd)) s = .next ((s.setReg (wregAddr rd) (d ||| 1#8 <<< b.toNat)).setFlags
        { z := some (!d.getLsbD b.toNat), s := some (b == 7 && d.getLsbD 7), v := some false })) ∧
    (∀ (rr : WPair) (d : Byte), s.wwOk rr = true → d = s.memByte .dest s.opSpace (s.ww rr) →
      exec (.btset (.mem b rr)) s = .next ((s.setMemByte s.opSpace (s.ww rr) (d ||| 1#8 <<< b.toNat)).setFlags
        { z := some (!d.getLsbD b.toNat), s := some (b == 7 && d.getLsbD 7), v := some false }))

/-! ## Control -/

/-- The condition of each code, and that a code and its negation differ in bit 3 (10_state.md R33). -/
def Obligations.ConditionCodes : Prop :=
  ∀ (s : State) (c z sg v : Bool), c = s.flagr.getLsbD 7 → z = s.flagr.getLsbD 6 → sg = s.flagr.getLsbD 5 →
    v = s.flagr.getLsbD 4 →
    s.cond 0x0 = false ∧ s.cond 0x1 = (sg ^^ v) ∧ s.cond 0x2 = (z || (sg ^^ v)) ∧ s.cond 0x3 = (c || z) ∧
    s.cond 0x4 = v ∧ s.cond 0x5 = sg ∧ s.cond 0x6 = z ∧ s.cond 0x7 = c ∧
    s.cond 0x8 = true ∧ s.cond 0x9 = (sg == v) ∧ s.cond 0xA = (!z && (sg == v)) ∧ s.cond 0xB = (!c && !z) ∧
    s.cond 0xC = !v ∧ s.cond 0xD = !sg ∧ s.cond 0xE = !z ∧ s.cond 0xF = !c ∧
    ∀ cc, s.cond (cc + 8) = !s.cond cc

/-- The sixteen JPcc and the sixteen JRcc jump when their condition holds and otherwise change nothing; the base of
a relative target is the address after the instruction; the condition code stands in their first byte
(46_control.md R373, R374). -/
def Obligations.ConditionalJumpsComplete : Prop :=
  ∀ (cc : BitVec 4) (nn : Word) (n : Byte) (s : State),
    exec (Instr.ofJp cc nn) s = .next (if s.cond cc then { s with pc := nn } else s) ∧
    exec (Instr.ofJr cc n) s =
      .next (if s.cond cc then { s with pc := BitVec.ofInt 16 (s.pc.toNat + n.toInt) } else s) ∧
    encode (Instr.ofJp cc nn) = [nib cc 0xD, nn.hi, nn.lo] ∧ encode (Instr.ofJr cc n) = [nib cc 0xB, n]

/-- JP (RR) and JPS replace the pc, JPS also CSR. CALL pushes the address after it and jumps; CALLS pushes that
address and CSR and jumps to another segment; the target is read before the pushes (46_control.md R371, R375 to
R377; that a push into the register file goes through what the push before it set is the model's choice, log entry
36). -/
def Obligations.JumpsAndCallsComplete : Prop :=
  ∀ s t : State,
    (∀ rr, s.pairReachable rr = true → exec (.jp rr) s = .next { s with pc := s.pair rr }) ∧
    (∀ f, s.farReachable f = true → exec (.jps f) s = .next { s with pc := (s.far f).2, csr := (s.far f).1 }) ∧
    (s.push16Ok .system s.pc = true → t = s.pushed16 .system s.pc →
      (∀ nn, exec (.call (.direct nn)) s = .next { t with pc := nn }) ∧
      (∀ rr, s.pairReachable rr = true → exec (.call (.indirect rr)) s = .next { t with pc := s.pair rr }) ∧
      (∀ f, s.farReachable f = true → t.push8Ok .system = true → exec (.calls f) s =
        .next { (t.pushed8 .system (s.csr.zeroExtend 8)) with pc := (s.far f).2, csr := (s.far f).1 }))

/-- RET, RETS and IRET pop what CALL, CALLS and the interrupt entry push; IRET sets CICR bit 4
(46_control.md R372, R378, R379; with ENCSR at 0 IRET leaves CSR, decision D22, log entry 14). -/
def Obligations.ReturnsComplete : Prop :=
  ∀ s : State,
    (s.pop16Ok .system = true → exec .ret s = .next { (s.dropped .system 2) with pc := s.top16 .system }) ∧
    (∀ s1, s.pop8Ok .system = true →
      s1 = { (s.dropped .system 1) with csr := (s.top8 .system).extractLsb' 0 6 } → s1.pop16Ok .system = true →
      exec .rets s = .next { (s1.dropped .system 2) with pc := s1.top16 .system }) ∧
    (∀ s1 s2, s.pop8Ok .system = true → s1 = { (s.dropped .system 1) with flagr := s.top8 .system } →
      (s.encsr = true → s1.pop8Ok .system = true) →
      s2 = (if s.encsr then { (s1.dropped .system 1) with csr := (s1.top8 .system).extractLsb' 0 6 } else s1) →
      s2.pop16Ok .system = true →
      exec .iret s = .next { (s2.dropped .system 2) with pc := s2.top16 .system, cicr := s2.cicr ||| 0x10 })

/-- A CALL to code that executes RET at once, and a CALLS to code that executes RETS, on a stack in ram or in
registers without a special role, come back to the address after the call with CSR and the pointer restored
(46_control.md R376 to R379, R385). -/
def Obligations.ReturnsUndoCalls : Prop :=
  ∀ s t : State,
    (∀ f, s.frameOk .system 2 → exec (.call f) s = .next t →
      exec .ret t = .next { t with pc := s.pc, ssp := s.ssp }) ∧
    (∀ f, s.frameOk .system 3 → exec (.calls f) s = .next t →
      exec .rets t = .next { t with pc := s.pc, csr := s.csr, ssp := s.ssp })

/-- DJNZ and DWJNZ decrement and jump unless the result is 0; on a counter in group E or F the decrement happens and
the jump is free (46_control.md R380, R381, 70_reset_and_hazards.md R500, log entry 6; that the second byte of a pair
goes through the register pointer or page that the first one set is the model's choice, log entry 36). -/
def Obligations.DecrementJumpsComplete : Prop :=
  ∀ (n : Byte) (s : State) (j : State → State),
    (∀ t, j t = { t with pc := BitVec.ofInt 16 (s.pc.toNat + n.toInt) }) →
    (∀ r d, s.reachable (wregAddr r) = true → d = s.w r - 1 →
      ((s.addr (wregAddr r)).toNat < 224 → exec (.djnz r n) s =
        .next (if d = 0 then s.setReg (wregAddr r) d else j (s.setReg (wregAddr r) d))) ∧
      (224 ≤ (s.addr (wregAddr r)).toNat → exec (.djnz r n) s =
        .next (if Config.freeBranch s.fresh then j (s.setReg (wregAddr r) d) else s.setReg (wregAddr r) d))) ∧
    (∀ rr d, s.pairReachable rr = true → d = s.pair rr - 1 → s.pairSettable rr d = true →
      ((s.addr rr).toNat < 224 → exec (.dwjnz rr n) s =
        .next (if d = 0 then s.setPair rr d else j (s.setPair rr d))) ∧
      (224 ≤ (s.addr rr).toNat → exec (.dwjnz rr n) s =
        .next (if Config.freeBranch s.fresh then j (s.setPair rr d) else s.setPair rr d)))

/-- BTJF and BTJT jump when the tested bit is 0 or 1. CPJFI jumps when register and memory differ and CPJTI when
they are equal; without a jump the pointer pair is incremented. No flag changes (45_boolean.md R359, R360,
46_control.md R382, R383; that the second byte of the pointer goes through the register pointer or page that the first
one set is the model's choice, log entry 36). -/
def Obligations.TestingJumpsComplete : Prop :=
  ∀ (rd : WReg) (n : Byte) (s t : State), t = { s with pc := BitVec.ofInt 16 (s.pc.toNat + n.toInt) } →
    (∀ b : BitVec 3, s.reachable (wregAddr rd) = true →
      exec (.btjf b rd n) s = .next (if (s.w rd).getLsbD b.toNat then s else t) ∧
      exec (.btjt b rd n) s = .next (if (s.w rd).getLsbD b.toNat then t else s)) ∧
    (∀ rrs : WPair, s.wOk rd = true → s.wwOk rrs = true →
      (s.w rd = s.srcByte (s.ww rrs) → exec (.cpjti rd rrs n) s = .next t ∧
        (s.bumpOk rrs 1 = true → exec (.cpjfi rd rrs n) s = .next (s.bumped rrs 1))) ∧
      (s.w rd ≠ s.srcByte (s.ww rrs) → exec (.cpjfi rd rrs n) s = .next t ∧
        (s.bumpOk rrs 1 = true → exec (.cpjti rd rrs n) s = .next (s.bumped rrs 1))))

/-! ## The rest -/

/-- SRP, SRP0 and SRP1 place the window: after them working register n lies where the group number says; SPP selects
the page (47_misc.md R421 to R424, 10_state.md R23, R27). SRP leaves RP1 alone, log entry 33. -/
def Obligations.WindowAndPageInstructionsComplete : Prop :=
  ∀ (g : BitVec 5) (pg : BitVec 6) (s : State),
    (∃ t, exec (.srp g) s = .next t ∧ t = { s with rp0 := g, twin := false } ∧
      ∀ n, (t.working n).toNat = 16 * (g.toNat / 2) + n.toNat) ∧
    (∃ t, exec (.srp0 g) s = .next t ∧ t = { s with rp0 := g, twin := true } ∧
      ∀ n : WReg, n.toNat < 8 → (t.working n).toNat = 8 * g.toNat + n.toNat) ∧
    (∃ t, exec (.srp1 g) s = .next t ∧ t = { s with rp1 := g, twin := true } ∧
      ∀ n : WReg, 8 ≤ n.toNat → (t.working n).toNat = 8 * g.toNat + (n.toNat - 8)) ∧
    (∃ t, exec (.spp pg) s = .next t ∧ t = { s with ppr := pg ++ 0#2 } ∧
      ∀ k : BitVec 4, t.reg (nib 0xF k) = Cells.read s.pages (16 * pg.toNat + k.toNat))

/-- XCH exchanges two registers, both read before either is written; EXT copies the sign of the low register of a
pair into all bits of the high one (47_misc.md R425, R426; the order of the reads and writes of XCH is the spec's
choice, log entry 19). That the second write of XCH goes through the window or page which its first write has just set
(XCH R232,r15) is the model's choice, log entry 36: 70_reset_and_hazards.md R501 leaves it open. -/
def Obligations.ExchangeAndExtendComplete : Prop :=
  ∀ s : State,
    (∀ rd rs s1, s.reachable rd = true → s.reachable rs = true → s1 = s.setReg rd (s.reg rs) →
      s1.reachable rs = true → exec (.xch rd rs) s = .next (s1.setReg rs (s.reg rd))) ∧
    (∀ rr h, s.pairReachable rr = true → word h (s.reg (rr + 1)) = (s.reg (rr + 1)).signExtend 16 →
      exec (.ext rr) s = .next (s.setReg rr h))

/-- EI and DI write CICR bit 4, SCF, RCF and CCF the carry, SDM and SPM the memory space of operands, WFI and HALT
the run state; NOP changes nothing. The bytes of each (47_misc.md R427 to R436). -/
def Obligations.OneBitInstructionsComplete : Prop :=
  ∀ s : State,
    exec .ei s = .next { s with cicr := s.cicr ||| 0x10 } ∧
    exec .di s = .next { s with cicr := s.cicr &&& 0xEF } ∧
    exec .scf s = .next { s with flagr := s.flagr ||| 0x80 } ∧
    exec .rcf s = .next { s with flagr := s.flagr &&& 0x7F } ∧
    exec .ccf s = .next { s with flagr := s.flagr ^^^ 0x80 } ∧
    exec .sdm s = .next { s with flagr := s.flagr ||| 0x01 } ∧
    exec .spm s = .next { s with flagr := s.flagr &&& 0xFE } ∧
    exec .wfi s = .next { s with runState := .waiting } ∧
    exec .halt s = .next { s with runState := .halted } ∧
    exec .nop s = .next s ∧
    [Instr.ei, .di, .scf, .rcf, .ccf, .sdm, .spm, .wfi, .halt, .nop].map encode =
      [[0x00], [0x10], [0x01], [0x11], [0x61], [0xFE], [0xEE], [0xEF, 0x01], [0xBF, 0x01], [0xFF]]

/-- ETRAP and ERET, which the opcode map names and nothing describes, stop the model as illegal encodings, with the
address and the bytes of the instruction (47_misc.md R437; decision D18, log entry 12). -/
def Obligations.UndescribedInstructionsStop : Prop :=
  ∀ s : State,
    exec .etrap s = .refused (.illegalEncoding (s.pc - 1) [0xCE]) ∧
    exec .eret s = .refused (.illegalEncoding (s.pc - 2) [0xEF, 0x31])
end

