-- ==== Sys2Proof/Laws/State.lean ====
section
/-! SUPPORT. One lemma per field of the state and update of it: what the update makes of the field. -/

namespace Sys2Proof.Machine

/-! ### `State.jump` -/

@[simp] theorem State.jump_phys (s : State) (t : Word) : (s.jump t).phys = s.phys := rfl
@[simp] theorem State.jump_pages (s : State) (t : Word) : (s.jump t).pages = s.pages := rfl
@[simp] theorem State.jump_rp0 (s : State) (t : Word) : (s.jump t).rp0 = s.rp0 := rfl
@[simp] theorem State.jump_rp1 (s : State) (t : Word) : (s.jump t).rp1 = s.rp1 := rfl
@[simp] theorem State.jump_twin (s : State) (t : Word) : (s.jump t).twin = s.twin := rfl
@[simp] theorem State.jump_ppr (s : State) (t : Word) : (s.jump t).ppr = s.ppr := rfl
@[simp] theorem State.jump_flagr (s : State) (t : Word) : (s.jump t).flagr = s.flagr := rfl
@[simp] theorem State.jump_cicr (s : State) (t : Word) : (s.jump t).cicr = s.cicr := rfl
@[simp] theorem State.jump_pc (s : State) (t : Word) : (s.jump t).pc = t := rfl
@[simp] theorem State.jump_csr (s : State) (t : Word) : (s.jump t).csr = s.csr := rfl
@[simp] theorem State.jump_encsr (s : State) (t : Word) : (s.jump t).encsr = s.encsr := rfl
@[simp] theorem State.jump_ssp (s : State) (t : Word) : (s.jump t).ssp = s.ssp := rfl
@[simp] theorem State.jump_usp (s : State) (t : Word) : (s.jump t).usp = s.usp := rfl
@[simp] theorem State.jump_sspInRegfile (s : State) (t : Word) : (s.jump t).sspInRegfile = s.sspInRegfile := rfl
@[simp] theorem State.jump_uspInRegfile (s : State) (t : Word) : (s.jump t).uspInRegfile = s.uspInRegfile := rfl
@[simp] theorem State.jump_runState (s : State) (t : Word) : (s.jump t).runState = s.runState := rfl
@[simp] theorem State.jump_mem (s : State) (t : Word) : (s.jump t).mem = s.mem := rfl
@[simp] theorem State.jump_dataMap (s : State) (t : Word) : (s.jump t).dataMap = s.dataMap := rfl
@[simp] theorem State.jump_memRegions (s : State) (t : Word) : (s.jump t).memRegions = s.memRegions := rfl
@[simp] theorem State.jump_inputs (s : State) (t : Word) : (s.jump t).inputs = s.inputs := rfl
@[simp] theorem State.jump_divwsHidden (s : State) (t : Word) : (s.jump t).divwsHidden = s.divwsHidden := rfl
@[simp] theorem State.jump_fresh (s : State) (t : Word) : (s.jump t).fresh = s.fresh := rfl
@[simp] theorem State.jump_stores (s : State) (t : Word) : (s.jump t).stores = s.stores := rfl

/-! ### `State.setFlags` -/

@[simp] theorem State.setFlags_phys (s : State) (u : FlagUpdate) : (s.setFlags u).phys = s.phys := rfl
@[simp] theorem State.setFlags_pages (s : State) (u : FlagUpdate) : (s.setFlags u).pages = s.pages := rfl
@[simp] theorem State.setFlags_rp0 (s : State) (u : FlagUpdate) : (s.setFlags u).rp0 = s.rp0 := rfl
@[simp] theorem State.setFlags_rp1 (s : State) (u : FlagUpdate) : (s.setFlags u).rp1 = s.rp1 := rfl
@[simp] theorem State.setFlags_twin (s : State) (u : FlagUpdate) : (s.setFlags u).twin = s.twin := rfl
@[simp] theorem State.setFlags_ppr (s : State) (u : FlagUpdate) : (s.setFlags u).ppr = s.ppr := rfl
@[simp] theorem State.setFlags_flagr (s : State) (u : FlagUpdate) : (s.setFlags u).flagr = u.apply s.flagr := rfl
@[simp] theorem State.setFlags_cicr (s : State) (u : FlagUpdate) : (s.setFlags u).cicr = s.cicr := rfl
@[simp] theorem State.setFlags_pc (s : State) (u : FlagUpdate) : (s.setFlags u).pc = s.pc := rfl
@[simp] theorem State.setFlags_csr (s : State) (u : FlagUpdate) : (s.setFlags u).csr = s.csr := rfl
@[simp] theorem State.setFlags_encsr (s : State) (u : FlagUpdate) : (s.setFlags u).encsr = s.encsr := rfl
@[simp] theorem State.setFlags_ssp (s : State) (u : FlagUpdate) : (s.setFlags u).ssp = s.ssp := rfl
@[simp] theorem State.setFlags_usp (s : State) (u : FlagUpdate) : (s.setFlags u).usp = s.usp := rfl
@[simp] theorem State.setFlags_sspInRegfile (s : State) (u : FlagUpdate) : (s.setFlags u).sspInRegfile = s.sspInRegfile := rfl
@[simp] theorem State.setFlags_uspInRegfile (s : State) (u : FlagUpdate) : (s.setFlags u).uspInRegfile = s.uspInRegfile := rfl
@[simp] theorem State.setFlags_runState (s : State) (u : FlagUpdate) : (s.setFlags u).runState = s.runState := rfl
@[simp] theorem State.setFlags_mem (s : State) (u : FlagUpdate) : (s.setFlags u).mem = s.mem := rfl
@[simp] theorem State.setFlags_dataMap (s : State) (u : FlagUpdate) : (s.setFlags u).dataMap = s.dataMap := rfl
@[simp] theorem State.setFlags_memRegions (s : State) (u : FlagUpdate) : (s.setFlags u).memRegions = s.memRegions := rfl
@[simp] theorem State.setFlags_inputs (s : State) (u : FlagUpdate) : (s.setFlags u).inputs = s.inputs := rfl
@[simp] theorem State.setFlags_divwsHidden (s : State) (u : FlagUpdate) : (s.setFlags u).divwsHidden = s.divwsHidden := rfl
@[simp] theorem State.setFlags_fresh (s : State) (u : FlagUpdate) : (s.setFlags u).fresh = s.fresh := rfl
@[simp] theorem State.setFlags_stores (s : State) (u : FlagUpdate) : (s.setFlags u).stores = s.stores := rfl

/-! ### `State.setIen` -/

@[simp] theorem State.setIen_phys (s : State) (b : Bool) : (s.setIen b).phys = s.phys := rfl
@[simp] theorem State.setIen_pages (s : State) (b : Bool) : (s.setIen b).pages = s.pages := rfl
@[simp] theorem State.setIen_rp0 (s : State) (b : Bool) : (s.setIen b).rp0 = s.rp0 := rfl
@[simp] theorem State.setIen_rp1 (s : State) (b : Bool) : (s.setIen b).rp1 = s.rp1 := rfl
@[simp] theorem State.setIen_twin (s : State) (b : Bool) : (s.setIen b).twin = s.twin := rfl
@[simp] theorem State.setIen_ppr (s : State) (b : Bool) : (s.setIen b).ppr = s.ppr := rfl
@[simp] theorem State.setIen_flagr (s : State) (b : Bool) : (s.setIen b).flagr = s.flagr := rfl
@[simp] theorem State.setIen_cicr (s : State) (b : Bool) : (s.setIen b).cicr = (s.cicr &&& 0xEF) ||| (if b then 0x10 else 0) := rfl
@[simp] theorem State.setIen_pc (s : State) (b : Bool) : (s.setIen b).pc = s.pc := rfl
@[simp] theorem State.setIen_csr (s : State) (b : Bool) : (s.setIen b).csr = s.csr := rfl
@[simp] theorem State.setIen_encsr (s : State) (b : Bool) : (s.setIen b).encsr = s.encsr := rfl
@[simp] theorem State.setIen_ssp (s : State) (b : Bool) : (s.setIen b).ssp = s.ssp := rfl
@[simp] theorem State.setIen_usp (s : State) (b : Bool) : (s.setIen b).usp = s.usp := rfl
@[simp] theorem State.setIen_sspInRegfile (s : State) (b : Bool) : (s.setIen b).sspInRegfile = s.sspInRegfile := rfl
@[simp] theorem State.setIen_uspInRegfile (s : State) (b : Bool) : (s.setIen b).uspInRegfile = s.uspInRegfile := rfl
@[simp] theorem State.setIen_runState (s : State) (b : Bool) : (s.setIen b).runState = s.runState := rfl
@[simp] theorem State.setIen_mem (s : State) (b : Bool) : (s.setIen b).mem = s.mem := rfl
@[simp] theorem State.setIen_dataMap (s : State) (b : Bool) : (s.setIen b).dataMap = s.dataMap := rfl
@[simp] theorem State.setIen_memRegions (s : State) (b : Bool) : (s.setIen b).memRegions = s.memRegions := rfl
@[simp] theorem State.setIen_inputs (s : State) (b : Bool) : (s.setIen b).inputs = s.inputs := rfl
@[simp] theorem State.setIen_divwsHidden (s : State) (b : Bool) : (s.setIen b).divwsHidden = s.divwsHidden := rfl
@[simp] theorem State.setIen_fresh (s : State) (b : Bool) : (s.setIen b).fresh = s.fresh := rfl
@[simp] theorem State.setIen_stores (s : State) (b : Bool) : (s.setIen b).stores = s.stores := rfl

/-! ### `State.advance` -/

@[simp] theorem State.advance_phys (s : State) (n : Nat) : (s.advance n).phys = s.phys := rfl
@[simp] theorem State.advance_pages (s : State) (n : Nat) : (s.advance n).pages = s.pages := rfl
@[simp] theorem State.advance_rp0 (s : State) (n : Nat) : (s.advance n).rp0 = s.rp0 := rfl
@[simp] theorem State.advance_rp1 (s : State) (n : Nat) : (s.advance n).rp1 = s.rp1 := rfl
@[simp] theorem State.advance_twin (s : State) (n : Nat) : (s.advance n).twin = s.twin := rfl
@[simp] theorem State.advance_ppr (s : State) (n : Nat) : (s.advance n).ppr = s.ppr := rfl
@[simp] theorem State.advance_flagr (s : State) (n : Nat) : (s.advance n).flagr = s.flagr := rfl
@[simp] theorem State.advance_cicr (s : State) (n : Nat) : (s.advance n).cicr = s.cicr := rfl
@[simp] theorem State.advance_pc (s : State) (n : Nat) : (s.advance n).pc = s.pc + BitVec.ofNat 16 n := rfl
@[simp] theorem State.advance_csr (s : State) (n : Nat) : (s.advance n).csr = s.csr := rfl
@[simp] theorem State.advance_encsr (s : State) (n : Nat) : (s.advance n).encsr = s.encsr := rfl
@[simp] theorem State.advance_ssp (s : State) (n : Nat) : (s.advance n).ssp = s.ssp := rfl
@[simp] theorem State.advance_usp (s : State) (n : Nat) : (s.advance n).usp = s.usp := rfl
@[simp] theorem State.advance_sspInRegfile (s : State) (n : Nat) : (s.advance n).sspInRegfile = s.sspInRegfile := rfl
@[simp] theorem State.advance_uspInRegfile (s : State) (n : Nat) : (s.advance n).uspInRegfile = s.uspInRegfile := rfl
@[simp] theorem State.advance_runState (s : State) (n : Nat) : (s.advance n).runState = s.runState := rfl
@[simp] theorem State.advance_mem (s : State) (n : Nat) : (s.advance n).mem = s.mem := rfl
@[simp] theorem State.advance_dataMap (s : State) (n : Nat) : (s.advance n).dataMap = s.dataMap := rfl
@[simp] theorem State.advance_memRegions (s : State) (n : Nat) : (s.advance n).memRegions = s.memRegions := rfl
@[simp] theorem State.advance_inputs (s : State) (n : Nat) : (s.advance n).inputs = s.inputs := rfl
@[simp] theorem State.advance_divwsHidden (s : State) (n : Nat) : (s.advance n).divwsHidden = s.divwsHidden := rfl
@[simp] theorem State.advance_fresh (s : State) (n : Nat) : (s.advance n).fresh = s.fresh + 1 := rfl
@[simp] theorem State.advance_stores (s : State) (n : Nat) : (s.advance n).stores = s.stores := rfl

/-! ### `State.answered` -/

@[simp] theorem State.answered_phys (s : State) : (s.answered).phys = s.phys := rfl
@[simp] theorem State.answered_pages (s : State) : (s.answered).pages = s.pages := rfl
@[simp] theorem State.answered_rp0 (s : State) : (s.answered).rp0 = s.rp0 := rfl
@[simp] theorem State.answered_rp1 (s : State) : (s.answered).rp1 = s.rp1 := rfl
@[simp] theorem State.answered_twin (s : State) : (s.answered).twin = s.twin := rfl
@[simp] theorem State.answered_ppr (s : State) : (s.answered).ppr = s.ppr := rfl
@[simp] theorem State.answered_flagr (s : State) : (s.answered).flagr = s.flagr := rfl
@[simp] theorem State.answered_cicr (s : State) : (s.answered).cicr = s.cicr := rfl
@[simp] theorem State.answered_pc (s : State) : (s.answered).pc = s.pc := rfl
@[simp] theorem State.answered_csr (s : State) : (s.answered).csr = s.csr := rfl
@[simp] theorem State.answered_encsr (s : State) : (s.answered).encsr = s.boundary.encsr.getD s.encsr := rfl
@[simp] theorem State.answered_ssp (s : State) : (s.answered).ssp = s.ssp := rfl
@[simp] theorem State.answered_usp (s : State) : (s.answered).usp = s.usp := rfl
@[simp] theorem State.answered_sspInRegfile (s : State) : (s.answered).sspInRegfile = s.sspInRegfile := rfl
@[simp] theorem State.answered_uspInRegfile (s : State) : (s.answered).uspInRegfile = s.uspInRegfile := rfl
@[simp] theorem State.answered_runState (s : State) : (s.answered).runState = s.runState := rfl
@[simp] theorem State.answered_mem (s : State) : (s.answered).mem = s.mem := rfl
@[simp] theorem State.answered_dataMap (s : State) : (s.answered).dataMap = s.dataMap := rfl
@[simp] theorem State.answered_memRegions (s : State) : (s.answered).memRegions = s.memRegions := rfl
@[simp] theorem State.answered_inputs (s : State) : (s.answered).inputs = s.inputs.tail := rfl
@[simp] theorem State.answered_divwsHidden (s : State) : (s.answered).divwsHidden = s.divwsHidden := rfl
@[simp] theorem State.answered_fresh (s : State) : (s.answered).fresh = s.fresh := rfl
@[simp] theorem State.answered_stores (s : State) : (s.answered).stores = [] := rfl

/-! ### `State.setSp` -/

@[simp] theorem State.setSp_phys (s : State) (k : Stack) (v : Word) : (s.setSp k v).phys = s.phys := by cases k <;> rfl
@[simp] theorem State.setSp_pages (s : State) (k : Stack) (v : Word) : (s.setSp k v).pages = s.pages := by cases k <;> rfl
@[simp] theorem State.setSp_rp0 (s : State) (k : Stack) (v : Word) : (s.setSp k v).rp0 = s.rp0 := by cases k <;> rfl
@[simp] theorem State.setSp_rp1 (s : State) (k : Stack) (v : Word) : (s.setSp k v).rp1 = s.rp1 := by cases k <;> rfl
@[simp] theorem State.setSp_twin (s : State) (k : Stack) (v : Word) : (s.setSp k v).twin = s.twin := by cases k <;> rfl
@[simp] theorem State.setSp_ppr (s : State) (k : Stack) (v : Word) : (s.setSp k v).ppr = s.ppr := by cases k <;> rfl
@[simp] theorem State.setSp_flagr (s : State) (k : Stack) (v : Word) : (s.setSp k v).flagr = s.flagr := by cases k <;> rfl
@[simp] theorem State.setSp_cicr (s : State) (k : Stack) (v : Word) : (s.setSp k v).cicr = s.cicr := by cases k <;> rfl
@[simp] theorem State.setSp_pc (s : State) (k : Stack) (v : Word) : (s.setSp k v).pc = s.pc := by cases k <;> rfl
@[simp] theorem State.setSp_csr (s : State) (k : Stack) (v : Word) : (s.setSp k v).csr = s.csr := by cases k <;> rfl
@[simp] theorem State.setSp_encsr (s : State) (k : Stack) (v : Word) : (s.setSp k v).encsr = s.encsr := by cases k <;> rfl
@[simp] theorem State.setSp_sspInRegfile (s : State) (k : Stack) (v : Word) : (s.setSp k v).sspInRegfile = s.sspInRegfile := by cases k <;> rfl
@[simp] theorem State.setSp_uspInRegfile (s : State) (k : Stack) (v : Word) : (s.setSp k v).uspInRegfile = s.uspInRegfile := by cases k <;> rfl
@[simp] theorem State.setSp_runState (s : State) (k : Stack) (v : Word) : (s.setSp k v).runState = s.runState := by cases k <;> rfl
@[simp] theorem State.setSp_mem (s : State) (k : Stack) (v : Word) : (s.setSp k v).mem = s.mem := by cases k <;> rfl
@[simp] theorem State.setSp_dataMap (s : State) (k : Stack) (v : Word) : (s.setSp k v).dataMap = s.dataMap := by cases k <;> rfl
@[simp] theorem State.setSp_memRegions (s : State) (k : Stack) (v : Word) : (s.setSp k v).memRegions = s.memRegions := by cases k <;> rfl
@[simp] theorem State.setSp_inputs (s : State) (k : Stack) (v : Word) : (s.setSp k v).inputs = s.inputs := by cases k <;> rfl
@[simp] theorem State.setSp_divwsHidden (s : State) (k : Stack) (v : Word) : (s.setSp k v).divwsHidden = s.divwsHidden := by cases k <;> rfl
@[simp] theorem State.setSp_fresh (s : State) (k : Stack) (v : Word) : (s.setSp k v).fresh = s.fresh := by cases k <;> rfl
@[simp] theorem State.setSp_stores (s : State) (k : Stack) (v : Word) : (s.setSp k v).stores = s.stores := by cases k <;> rfl
@[simp] theorem State.setSp_system_ssp (s : State) (v : Word) : (s.setSp .system v).ssp = v := rfl
@[simp] theorem State.setSp_system_usp (s : State) (v : Word) : (s.setSp .system v).usp = s.usp := rfl
@[simp] theorem State.setSp_user_ssp (s : State) (v : Word) : (s.setSp .user v).ssp = s.ssp := rfl
@[simp] theorem State.setSp_user_usp (s : State) (v : Word) : (s.setSp .user v).usp = v := rfl
@[simp] theorem State.sp_setSp (s : State) (k : Stack) (v : Word) : (s.setSp k v).sp k = v := by cases k <;> rfl

/-! ### `State.setSpLow` -/

@[simp] theorem State.setSpLow_phys (s : State) (k : Stack) (v : Byte) : (s.setSpLow k v).phys = s.phys := by cases k <;> rfl
@[simp] theorem State.setSpLow_pages (s : State) (k : Stack) (v : Byte) : (s.setSpLow k v).pages = s.pages := by cases k <;> rfl
@[simp] theorem State.setSpLow_rp0 (s : State) (k : Stack) (v : Byte) : (s.setSpLow k v).rp0 = s.rp0 := by cases k <;> rfl
@[simp] theorem State.setSpLow_rp1 (s : State) (k : Stack) (v : Byte) : (s.setSpLow k v).rp1 = s.rp1 := by cases k <;> rfl
@[simp] theorem State.setSpLow_twin (s : State) (k : Stack) (v : Byte) : (s.setSpLow k v).twin = s.twin := by cases k <;> rfl
@[simp] theorem State.setSpLow_ppr (s : State) (k : Stack) (v : Byte) : (s.setSpLow k v).ppr = s.ppr := by cases k <;> rfl
@[simp] theorem State.setSpLow_flagr (s : State) (k : Stack) (v : Byte) : (s.setSpLow k v).flagr = s.flagr := by cases k <;> rfl
@[simp] theorem State.setSpLow_cicr (s : State) (k : Stack) (v : Byte) : (s.setSpLow k v).cicr = s.cicr := by cases k <;> rfl
@[simp] theorem State.setSpLow_pc (s : State) (k : Stack) (v : Byte) : (s.setSpLow k v).pc = s.pc := by cases k <;> rfl
@[simp] theorem State.setSpLow_csr (s : State) (k : Stack) (v : Byte) : (s.setSpLow k v).csr = s.csr := by cases k <;> rfl
@[simp] theorem State.setSpLow_encsr (s : State) (k : Stack) (v : Byte) : (s.setSpLow k v).encsr = s.encsr := by cases k <;> rfl
@[simp] theorem State.setSpLow_sspInRegfile (s : State) (k : Stack) (v : Byte) : (s.setSpLow k v).sspInRegfile = s.sspInRegfile := by cases k <;> rfl
@[simp] theorem State.setSpLow_uspInRegfile (s : State) (k : Stack) (v : Byte) : (s.setSpLow k v).uspInRegfile = s.uspInRegfile := by cases k <;> rfl
@[simp] theorem State.setSpLow_runState (s : State) (k : Stack) (v : Byte) : (s.setSpLow k v).runState = s.runState := by cases k <;> rfl
@[simp] theorem State.setSpLow_mem (s : State) (k : Stack) (v : Byte) : (s.setSpLow k v).mem = s.mem := by cases k <;> rfl
@[simp] theorem State.setSpLow_dataMap (s : State) (k : Stack) (v : Byte) : (s.setSpLow k v).dataMap = s.dataMap := by cases k <;> rfl
@[simp] theorem State.setSpLow_memRegions (s : State) (k : Stack) (v : Byte) : (s.setSpLow k v).memRegions = s.memRegions := by cases k <;> rfl
@[simp] theorem State.setSpLow_inputs (s : State) (k : Stack) (v : Byte) : (s.setSpLow k v).inputs = s.inputs := by cases k <;> rfl
@[simp] theorem State.setSpLow_divwsHidden (s : State) (k : Stack) (v : Byte) : (s.setSpLow k v).divwsHidden = s.divwsHidden := by cases k <;> rfl
@[simp] theorem State.setSpLow_fresh (s : State) (k : Stack) (v : Byte) : (s.setSpLow k v).fresh = s.fresh := by cases k <;> rfl
@[simp] theorem State.setSpLow_stores (s : State) (k : Stack) (v : Byte) : (s.setSpLow k v).stores = s.stores := by cases k <;> rfl

/-! ### `State.setSpHigh` -/

@[simp] theorem State.setSpHigh_phys (s : State) (k : Stack) (v : Byte) : (s.setSpHigh k v).phys = s.phys := by cases k <;> rfl
@[simp] theorem State.setSpHigh_pages (s : State) (k : Stack) (v : Byte) : (s.setSpHigh k v).pages = s.pages := by cases k <;> rfl
@[simp] theorem State.setSpHigh_rp0 (s : State) (k : Stack) (v : Byte) : (s.setSpHigh k v).rp0 = s.rp0 := by cases k <;> rfl
@[simp] theorem State.setSpHigh_rp1 (s : State) (k : Stack) (v : Byte) : (s.setSpHigh k v).rp1 = s.rp1 := by cases k <;> rfl
@[simp] theorem State.setSpHigh_twin (s : State) (k : Stack) (v : Byte) : (s.setSpHigh k v).twin = s.twin := by cases k <;> rfl
@[simp] theorem State.setSpHigh_ppr (s : State) (k : Stack) (v : Byte) : (s.setSpHigh k v).ppr = s.ppr := by cases k <;> rfl
@[simp] theorem State.setSpHigh_flagr (s : State) (k : Stack) (v : Byte) : (s.setSpHigh k v).flagr = s.flagr := by cases k <;> rfl
@[simp] theorem State.setSpHigh_cicr (s : State) (k : Stack) (v : Byte) : (s.setSpHigh k v).cicr = s.cicr := by cases k <;> rfl
@[simp] theorem State.setSpHigh_pc (s : State) (k : Stack) (v : Byte) : (s.setSpHigh k v).pc = s.pc := by cases k <;> rfl
@[simp] theorem State.setSpHigh_csr (s : State) (k : Stack) (v : Byte) : (s.setSpHigh k v).csr = s.csr := by cases k <;> rfl
@[simp] theorem State.setSpHigh_encsr (s : State) (k : Stack) (v : Byte) : (s.setSpHigh k v).encsr = s.encsr := by cases k <;> rfl
@[simp] theorem State.setSpHigh_sspInRegfile (s : State) (k : Stack) (v : Byte) : (s.setSpHigh k v).sspInRegfile = s.sspInRegfile := by cases k <;> rfl
@[simp] theorem State.setSpHigh_uspInRegfile (s : State) (k : Stack) (v : Byte) : (s.setSpHigh k v).uspInRegfile = s.uspInRegfile := by cases k <;> rfl
@[simp] theorem State.setSpHigh_runState (s : State) (k : Stack) (v : Byte) : (s.setSpHigh k v).runState = s.runState := by cases k <;> rfl
@[simp] theorem State.setSpHigh_mem (s : State) (k : Stack) (v : Byte) : (s.setSpHigh k v).mem = s.mem := by cases k <;> rfl
@[simp] theorem State.setSpHigh_dataMap (s : State) (k : Stack) (v : Byte) : (s.setSpHigh k v).dataMap = s.dataMap := by cases k <;> rfl
@[simp] theorem State.setSpHigh_memRegions (s : State) (k : Stack) (v : Byte) : (s.setSpHigh k v).memRegions = s.memRegions := by cases k <;> rfl
@[simp] theorem State.setSpHigh_inputs (s : State) (k : Stack) (v : Byte) : (s.setSpHigh k v).inputs = s.inputs := by cases k <;> rfl
@[simp] theorem State.setSpHigh_divwsHidden (s : State) (k : Stack) (v : Byte) : (s.setSpHigh k v).divwsHidden = s.divwsHidden := by cases k <;> rfl
@[simp] theorem State.setSpHigh_fresh (s : State) (k : Stack) (v : Byte) : (s.setSpHigh k v).fresh = s.fresh := by cases k <;> rfl
@[simp] theorem State.setSpHigh_stores (s : State) (k : Stack) (v : Byte) : (s.setSpHigh k v).stores = s.stores := by cases k <;> rfl

/-! ### `State.setMemByte` and `State.setMemWord` -/

@[simp] theorem State.setMemByte_phys (s : State) (sp : Space) (a : Word) (v : Byte) : (s.setMemByte sp a v).phys = s.phys := by
  unfold State.setMemByte; split <;> rfl
@[simp] theorem State.setMemByte_pages (s : State) (sp : Space) (a : Word) (v : Byte) : (s.setMemByte sp a v).pages = s.pages := by
  unfold State.setMemByte; split <;> rfl
@[simp] theorem State.setMemByte_rp0 (s : State) (sp : Space) (a : Word) (v : Byte) : (s.setMemByte sp a v).rp0 = s.rp0 := by
  unfold State.setMemByte; split <;> rfl
@[simp] theorem State.setMemByte_rp1 (s : State) (sp : Space) (a : Word) (v : Byte) : (s.setMemByte sp a v).rp1 = s.rp1 := by
  unfold State.setMemByte; split <;> rfl
@[simp] theorem State.setMemByte_twin (s : State) (sp : Space) (a : Word) (v : Byte) : (s.setMemByte sp a v).twin = s.twin := by
  unfold State.setMemByte; split <;> rfl
@[simp] theorem State.setMemByte_ppr (s : State) (sp : Space) (a : Word) (v : Byte) : (s.setMemByte sp a v).ppr = s.ppr := by
  unfold State.setMemByte; split <;> rfl
@[simp] theorem State.setMemByte_flagr (s : State) (sp : Space) (a : Word) (v : Byte) : (s.setMemByte sp a v).flagr = s.flagr := by
  unfold State.setMemByte; split <;> rfl
@[simp] theorem State.setMemByte_cicr (s : State) (sp : Space) (a : Word) (v : Byte) : (s.setMemByte sp a v).cicr = s.cicr := by
  unfold State.setMemByte; split <;> rfl
@[simp] theorem State.setMemByte_pc (s : State) (sp : Space) (a : Word) (v : Byte) : (s.setMemByte sp a v).pc = s.pc := by
  unfold State.setMemByte; split <;> rfl
@[simp] theorem State.setMemByte_csr (s : State) (sp : Space) (a : Word) (v : Byte) : (s.setMemByte sp a v).csr = s.csr := by
  unfold State.setMemByte; split <;> rfl
@[simp] theorem State.setMemByte_encsr (s : State) (sp : Space) (a : Word) (v : Byte) : (s.setMemByte sp a v).encsr = s.encsr := by
  unfold State.setMemByte; split <;> rfl
@[simp] theorem State.setMemByte_ssp (s : State) (sp : Space) (a : Word) (v : Byte) : (s.setMemByte sp a v).ssp = s.ssp := by
  unfold State.setMemByte; split <;> rfl
@[simp] theorem State.setMemByte_usp (s : State) (sp : Space) (a : Word) (v : Byte) : (s.setMemByte sp a v).usp = s.usp := by
  unfold State.setMemByte; split <;> rfl
@[simp] theorem State.setMemByte_sspInRegfile (s : State) (sp : Space) (a : Word) (v : Byte) : (s.setMemByte sp a v).sspInRegfile = s.sspInRegfile := by
  unfold State.setMemByte; split <;> rfl
@[simp] theorem State.setMemByte_uspInRegfile (s : State) (sp : Space) (a : Word) (v : Byte) : (s.setMemByte sp a v).uspInRegfile = s.uspInRegfile := by
  unfold State.setMemByte; split <;> rfl
@[simp] theorem State.setMemByte_runState (s : State) (sp : Space) (a : Word) (v : Byte) : (s.setMemByte sp a v).runState = s.runState := by
  unfold State.setMemByte; split <;> rfl
@[simp] theorem State.setMemByte_dataMap (s : State) (sp : Space) (a : Word) (v : Byte) : (s.setMemByte sp a v).dataMap = s.dataMap := by
  unfold State.setMemByte; split <;> rfl
@[simp] theorem State.setMemByte_memRegions (s : State) (sp : Space) (a : Word) (v : Byte) : (s.setMemByte sp a v).memRegions = s.memRegions := by
  unfold State.setMemByte; split <;> rfl
@[simp] theorem State.setMemByte_inputs (s : State) (sp : Space) (a : Word) (v : Byte) : (s.setMemByte sp a v).inputs = s.inputs := by
  unfold State.setMemByte; split <;> rfl
@[simp] theorem State.setMemByte_divwsHidden (s : State) (sp : Space) (a : Word) (v : Byte) : (s.setMemByte sp a v).divwsHidden = s.divwsHidden := by
  unfold State.setMemByte; split <;> rfl
@[simp] theorem State.setMemByte_fresh (s : State) (sp : Space) (a : Word) (v : Byte) : (s.setMemByte sp a v).fresh = s.fresh := by
  unfold State.setMemByte; split <;> rfl
@[simp] theorem State.setMemWord_phys (s : State) (sp : Space) (a v : Word) : (s.setMemWord sp a v).phys = s.phys := by
  simp [State.setMemWord]
@[simp] theorem State.setMemWord_pages (s : State) (sp : Space) (a v : Word) : (s.setMemWord sp a v).pages = s.pages := by
  simp [State.setMemWord]
@[simp] theorem State.setMemWord_rp0 (s : State) (sp : Space) (a v : Word) : (s.setMemWord sp a v).rp0 = s.rp0 := by
  simp [State.setMemWord]
@[simp] theorem State.setMemWord_rp1 (s : State) (sp : Space) (a v : Word) : (s.setMemWord sp a v).rp1 = s.rp1 := by
  simp [State.setMemWord]
@[simp] theorem State.setMemWord_twin (s : State) (sp : Space) (a v : Word) : (s.setMemWord sp a v).twin = s.twin := by
  simp [State.setMemWord]
@[simp] theorem State.setMemWord_ppr (s : State) (sp : Space) (a v : Word) : (s.setMemWord sp a v).ppr = s.ppr := by
  simp [State.setMemWord]
@[simp] theorem State.setMemWord_flagr (s : State) (sp : Space) (a v : Word) : (s.setMemWord sp a v).flagr = s.flagr := by
  simp [State.setMemWord]
@[simp] theorem State.setMemWord_cicr (s : State) (sp : Space) (a v : Word) : (s.setMemWord sp a v).cicr = s.cicr := by
  simp [State.setMemWord]
@[simp] theorem State.setMemWord_pc (s : State) (sp : Space) (a v : Word) : (s.setMemWord sp a v).pc = s.pc := by
  simp [State.setMemWord]
@[simp] theorem State.setMemWord_csr (s : State) (sp : Space) (a v : Word) : (s.setMemWord sp a v).csr = s.csr := by
  simp [State.setMemWord]
@[simp] theorem State.setMemWord_encsr (s : State) (sp : Space) (a v : Word) : (s.setMemWord sp a v).encsr = s.encsr := by
  simp [State.setMemWord]
@[simp] theorem State.setMemWord_ssp (s : State) (sp : Space) (a v : Word) : (s.setMemWord sp a v).ssp = s.ssp := by
  simp [State.setMemWord]
@[simp] theorem State.setMemWord_usp (s : State) (sp : Space) (a v : Word) : (s.setMemWord sp a v).usp = s.usp := by
  simp [State.setMemWord]
@[simp] theorem State.setMemWord_sspInRegfile (s : State) (sp : Space) (a v : Word) : (s.setMemWord sp a v).sspInRegfile = s.sspInRegfile := by
  simp [State.setMemWord]
@[simp] theorem State.setMemWord_uspInRegfile (s : State) (sp : Space) (a v : Word) : (s.setMemWord sp a v).uspInRegfile = s.uspInRegfile := by
  simp [State.setMemWord]
@[simp] theorem State.setMemWord_runState (s : State) (sp : Space) (a v : Word) : (s.setMemWord sp a v).runState = s.runState := by
  simp [State.setMemWord]
@[simp] theorem State.setMemWord_dataMap (s : State) (sp : Space) (a v : Word) : (s.setMemWord sp a v).dataMap = s.dataMap := by
  simp [State.setMemWord]
@[simp] theorem State.setMemWord_memRegions (s : State) (sp : Space) (a v : Word) : (s.setMemWord sp a v).memRegions = s.memRegions := by
  simp [State.setMemWord]
@[simp] theorem State.setMemWord_inputs (s : State) (sp : Space) (a v : Word) : (s.setMemWord sp a v).inputs = s.inputs := by
  simp [State.setMemWord]
@[simp] theorem State.setMemWord_divwsHidden (s : State) (sp : Space) (a v : Word) : (s.setMemWord sp a v).divwsHidden = s.divwsHidden := by
  simp [State.setMemWord]
@[simp] theorem State.setMemWord_fresh (s : State) (sp : Space) (a v : Word) : (s.setMemWord sp a v).fresh = s.fresh := by
  simp [State.setMemWord]

/-! ### `State.setCell` and `State.setReg` -/

@[simp] theorem State.setCell_pc (s : State) (p v : Byte) : (s.setCell p v).pc = s.pc := by
  unfold State.setCell; split <;> rfl
@[simp] theorem State.setCell_csr (s : State) (p v : Byte) : (s.setCell p v).csr = s.csr := by
  unfold State.setCell; split <;> rfl
@[simp] theorem State.setCell_encsr (s : State) (p v : Byte) : (s.setCell p v).encsr = s.encsr := by
  unfold State.setCell; split <;> rfl
@[simp] theorem State.setCell_sspInRegfile (s : State) (p v : Byte) : (s.setCell p v).sspInRegfile = s.sspInRegfile := by
  unfold State.setCell; split <;> rfl
@[simp] theorem State.setCell_uspInRegfile (s : State) (p v : Byte) : (s.setCell p v).uspInRegfile = s.uspInRegfile := by
  unfold State.setCell; split <;> rfl
@[simp] theorem State.setCell_runState (s : State) (p v : Byte) : (s.setCell p v).runState = s.runState := by
  unfold State.setCell; split <;> rfl
@[simp] theorem State.setCell_mem (s : State) (p v : Byte) : (s.setCell p v).mem = s.mem := by
  unfold State.setCell; split <;> rfl
@[simp] theorem State.setCell_dataMap (s : State) (p v : Byte) : (s.setCell p v).dataMap = s.dataMap := by
  unfold State.setCell; split <;> rfl
@[simp] theorem State.setCell_memRegions (s : State) (p v : Byte) : (s.setCell p v).memRegions = s.memRegions := by
  unfold State.setCell; split <;> rfl
@[simp] theorem State.setCell_inputs (s : State) (p v : Byte) : (s.setCell p v).inputs = s.inputs := by
  unfold State.setCell; split <;> rfl
@[simp] theorem State.setCell_divwsHidden (s : State) (p v : Byte) : (s.setCell p v).divwsHidden = s.divwsHidden := by
  unfold State.setCell; split <;> rfl
@[simp] theorem State.setCell_fresh (s : State) (p v : Byte) : (s.setCell p v).fresh = s.fresh := by
  unfold State.setCell; split <;> rfl
@[simp] theorem State.setCell_stores (s : State) (p v : Byte) : (s.setCell p v).stores = s.stores := by
  unfold State.setCell; split <;> rfl
@[simp] theorem State.setReg_pc (s : State) (a v : Byte) : (s.setReg a v).pc = s.pc := State.setCell_pc s _ v
@[simp] theorem State.setReg_csr (s : State) (a v : Byte) : (s.setReg a v).csr = s.csr := State.setCell_csr s _ v
@[simp] theorem State.setReg_encsr (s : State) (a v : Byte) : (s.setReg a v).encsr = s.encsr := State.setCell_encsr s _ v
@[simp] theorem State.setReg_sspInRegfile (s : State) (a v : Byte) : (s.setReg a v).sspInRegfile = s.sspInRegfile := State.setCell_sspInRegfile s _ v
@[simp] theorem State.setReg_uspInRegfile (s : State) (a v : Byte) : (s.setReg a v).uspInRegfile = s.uspInRegfile := State.setCell_uspInRegfile s _ v
@[simp] theorem State.setReg_runState (s : State) (a v : Byte) : (s.setReg a v).runState = s.runState := State.setCell_runState s _ v
@[simp] theorem State.setReg_mem (s : State) (a v : Byte) : (s.setReg a v).mem = s.mem := State.setCell_mem s _ v
@[simp] theorem State.setReg_dataMap (s : State) (a v : Byte) : (s.setReg a v).dataMap = s.dataMap := State.setCell_dataMap s _ v
@[simp] theorem State.setReg_memRegions (s : State) (a v : Byte) : (s.setReg a v).memRegions = s.memRegions := State.setCell_memRegions s _ v
@[simp] theorem State.setReg_inputs (s : State) (a v : Byte) : (s.setReg a v).inputs = s.inputs := State.setCell_inputs s _ v
@[simp] theorem State.setReg_divwsHidden (s : State) (a v : Byte) : (s.setReg a v).divwsHidden = s.divwsHidden := State.setCell_divwsHidden s _ v
@[simp] theorem State.setReg_fresh (s : State) (a v : Byte) : (s.setReg a v).fresh = s.fresh := State.setCell_fresh s _ v
@[simp] theorem State.setReg_stores (s : State) (a v : Byte) : (s.setReg a v).stores = s.stores := State.setCell_stores s _ v

end Sys2Proof.Machine
end

