-- ==== Sys2Proof/Laws/Storage.lean ====
section
/-! SUPPORT. The laws of sparse storage: a read after a write, and that every operation keeps the canonical form. -/

namespace Sys2Proof.Machine

@[simp] theorem Cells.read_nil (k : Nat) : Cells.read [] k = 0 := rfl

theorem Cells.read_erase_same (m : Cells) (k : Nat) : Cells.read (Cells.erase m k) k = 0 := by
  induction m with
  | nil => rfl
  | cons c m ih => by_cases h : c.1 = k <;> simp [Cells.erase, Cells.read, h, ih]

theorem Cells.read_erase_other (m : Cells) {k j : Nat} (h : j ≠ k) :
    Cells.read (Cells.erase m k) j = Cells.read m j := by
  induction m with
  | nil => rfl
  | cons c m ih =>
    by_cases hk : c.1 = k
    · have : c.1 ≠ j := fun e => h (e.symm.trans hk)
      rw [Cells.erase, if_pos hk, ih, Cells.read, if_neg this]
    · rw [Cells.erase, if_neg hk, Cells.read, Cells.read, ih]

theorem Cells.read_insert_same (m : Cells) (k : Nat) (v : Byte) (h : Cells.read m k = 0)
    (hk : ∀ c ∈ m, c.1 ≠ k) : Cells.read (Cells.insert m k v) k = v := by
  induction m with
  | nil => simp [Cells.insert, Cells.read]
  | cons c m ih =>
    have hc : c.1 ≠ k := hk c List.mem_cons_self
    unfold Cells.insert
    split
    · simp [Cells.read]
    · rw [Cells.read, if_neg hc] at *
      exact ih h fun d hd => hk d (List.mem_cons_of_mem _ hd)

theorem Cells.read_insert_other (m : Cells) {k j : Nat} (v : Byte) (h : j ≠ k) :
    Cells.read (Cells.insert m k v) j = Cells.read m j := by
  induction m with
  | nil => simp [Cells.insert, Cells.read, h.symm]
  | cons c m ih =>
    unfold Cells.insert
    split
    · simp [Cells.read, h.symm]
    · rw [Cells.read, Cells.read, ih]

theorem Cells.erase_keys (m : Cells) (k : Nat) : ∀ c ∈ Cells.erase m k, c.1 ≠ k := by
  induction m with
  | nil => simp [Cells.erase]
  | cons c m ih =>
    unfold Cells.erase
    split
    · exact ih
    · exact List.forall_mem_cons.mpr ⟨‹_›, ih⟩

/-- A read after a write of the same key gives the value written. -/
@[simp] theorem Cells.read_write_same (m : Cells) (k : Nat) (v : Byte) : Cells.read (Cells.write m k v) k = v := by
  unfold Cells.write
  split
  · rw [Cells.read_erase_same]; exact Eq.symm ‹_›
  · exact Cells.read_insert_same _ _ _ (Cells.read_erase_same _ _) (Cells.erase_keys _ _)

/-- A write leaves every other key alone. -/
theorem Cells.read_write_other (m : Cells) {k j : Nat} (v : Byte) (h : j ≠ k) :
    Cells.read (Cells.write m k v) j = Cells.read m j := by
  unfold Cells.write
  split
  · exact Cells.read_erase_other m h
  · rw [Cells.read_insert_other _ _ h, Cells.read_erase_other m h]

theorem Cells.read_write (m : Cells) (k j : Nat) (v : Byte) :
    Cells.read (Cells.write m k v) j = if j = k then v else Cells.read m j := by
  split
  · subst_vars; exact Cells.read_write_same ..
  · exact Cells.read_write_other _ _ ‹_›

/-! ### The canonical form -/

theorem Cells.wfFrom_mono {lo lo' bound : Nat} {m : Cells} (h : lo' ≤ lo) (hm : Cells.wfFrom lo bound m = true) :
    Cells.wfFrom lo' bound m = true := by
  cases m with
  | nil => rfl
  | cons c m =>
    simp only [Cells.wfFrom, Bool.and_eq_true, decide_eq_true_eq] at hm ⊢
    exact ⟨⟨⟨Nat.le_trans h hm.1.1.1, hm.1.1.2⟩, hm.1.2⟩, hm.2⟩

theorem Cells.wfFrom_erase {lo bound : Nat} {m : Cells} (k : Nat) (h : Cells.wfFrom lo bound m = true) :
    Cells.wfFrom lo bound (Cells.erase m k) = true := by
  induction m generalizing lo with
  | nil => rfl
  | cons c m ih =>
    simp only [Cells.wfFrom, Bool.and_eq_true, decide_eq_true_eq] at h
    unfold Cells.erase
    split
    · exact ih (Cells.wfFrom_mono (by omega) h.2)
    · simp only [Cells.wfFrom, Bool.and_eq_true, decide_eq_true_eq]
      exact ⟨h.1, ih h.2⟩

theorem Cells.wfFrom_insert {lo bound k : Nat} {m : Cells} {v : Byte} (h : Cells.wfFrom lo bound m = true)
    (hk : ∀ c ∈ m, c.1 ≠ k) (hlo : lo ≤ k) (hb : k < bound) (hv : v ≠ 0) :
    Cells.wfFrom lo bound (Cells.insert m k v) = true := by
  induction m generalizing lo with
  | nil =>
    simp only [Cells.insert, Cells.wfFrom, Bool.and_eq_true, decide_eq_true_eq, bne_iff_ne, ne_eq]
    exact ⟨⟨⟨hlo, hb⟩, hv⟩, trivial⟩
  | cons c m ih =>
    have hc : c.1 ≠ k := hk c List.mem_cons_self
    simp only [Cells.wfFrom, Bool.and_eq_true, decide_eq_true_eq] at h
    unfold Cells.insert
    split
    · simp only [Cells.wfFrom, Bool.and_eq_true, decide_eq_true_eq, bne_iff_ne, ne_eq]
      exact ⟨⟨⟨hlo, hb⟩, hv⟩, ⟨⟨by omega, h.1.1.2⟩, by simpa using h.1.2⟩, h.2⟩
    · simp only [Cells.wfFrom, Bool.and_eq_true, decide_eq_true_eq]
      exact ⟨h.1, ih h.2 (fun d hd => hk d (List.mem_cons_of_mem _ hd)) (by omega)⟩

/-- A write keeps the canonical form. -/
theorem Cells.wf_write {bound k : Nat} {m : Cells} (v : Byte) (h : Cells.wf bound m = true) (hb : k < bound) :
    Cells.wf bound (Cells.write m k v) = true := by
  unfold Cells.wf Cells.write at *
  split
  · exact Cells.wfFrom_erase k h
  · exact Cells.wfFrom_insert (Cells.wfFrom_erase k h) (Cells.erase_keys m k) (Nat.zero_le k) hb ‹_›

/-- The normal form of any list is canonical. -/
theorem Cells.wf_normal (bound : Nat) (m : Cells) : Cells.wf bound (Cells.normal bound m) = true := by
  induction m with
  | nil => rfl
  | cons c m ih =>
    unfold Cells.normal
    split
    · exact Cells.wf_write _ ih ‹_›
    · exact ih

/-- The normal form reads as the list does, below the bound. -/
theorem Cells.read_normal (bound : Nat) (m : Cells) {k : Nat} (h : k < bound) :
    Cells.read (Cells.normal bound m) k = Cells.read m k := by
  induction m with
  | nil => rfl
  | cons c m ih =>
    rw [Cells.normal, Cells.read]
    by_cases hb : c.1 < bound
    · rw [if_pos hb, Cells.read_write, ih]
      by_cases hc : c.1 = k
      · rw [if_pos hc, if_pos hc.symm]
      · rw [if_neg hc, if_neg (Ne.symm hc)]
    · have hc : c.1 ≠ k := by omega
      rw [if_neg hb, if_neg hc, ih]

/-- An address reads as the last marked store to it left it, or as before where there is none. -/
theorem Cells.read_land (marks : List Bool) (es : List (PhysAddr × Byte)) (m : Cells) (p : PhysAddr) :
    Cells.read (Cells.land marks es m) p.toNat =
      ((((marks.zip es).filter (·.1)).map (·.2)).reverse.lookup p).getD (Cells.read m p.toNat) := by
  induction marks generalizing es m with
  | nil => cases es <;> rfl
  | cons b bs ih =>
    cases es with
    | nil => rfl
    | cons e es =>
      rw [Cells.land, ih]
      cases b with
      | false => simp
      | true =>
        obtain ⟨q, v⟩ := e
        by_cases h : p = q
        · subst h; simp [List.lookup_append]
        · have hn : p.toNat ≠ q.toNat := fun e => h (BitVec.eq_of_toNat_eq e)
          simp [List.lookup_append, List.lookup_cons, beq_false_of_ne h, Cells.read_write, hn]

theorem Cells.wf_land (marks : List Bool) (es : List (PhysAddr × Byte)) {m : Cells} (h : Memory.wf m = true) :
    Memory.wf (Cells.land marks es m) = true := by
  induction marks generalizing es m with
  | nil => cases es <;> exact h
  | cons b bs ih =>
    cases es with
    | nil => exact h
    | cons e es =>
      refine ih es ?_
      split
      · exact Cells.wf_write _ h e.1.isLt
      · exact h

/-- Where `ok` fails, an overlay changes nothing. -/
theorem Cells.read_overlay_not {ok : PhysAddr → Bool} (es : List (PhysAddr × Byte)) (m : Cells) {p : PhysAddr}
    (h : ok p = false) : Cells.read (Cells.overlay ok es m) p.toNat = Cells.read m p.toNat := by
  induction es with
  | nil => rfl
  | cons e es ih =>
    unfold Cells.overlay
    split
    · have hn : p.toNat ≠ e.1.toNat := fun q => by
        have := BitVec.eq_of_toNat_eq q
        simp_all
      rw [Cells.read_write, if_neg hn, ih]
    · exact ih

/-- Where `ok` holds, an overlay reads as its first entry for the address, or as before where it has none. -/
theorem Cells.read_overlay {ok : PhysAddr → Bool} (es : List (PhysAddr × Byte)) (m : Cells) {p : PhysAddr}
    (h : ok p = true) : Cells.read (Cells.overlay ok es m) p.toNat = (es.lookup p).getD (Cells.read m p.toNat) := by
  induction es with
  | nil => rfl
  | cons e es ih =>
    obtain ⟨q, b⟩ := e
    rw [Cells.overlay, List.lookup_cons]
    by_cases he : p = q
    · subst he
      simp [h]
    · have hn : p.toNat ≠ q.toNat := fun r => he (BitVec.eq_of_toNat_eq r)
      rw [beq_false_of_ne he, ← ih]
      split
      · rw [Cells.read_write, if_neg hn]
      · rfl

theorem Cells.wf_overlay (ok : PhysAddr → Bool) (es : List (PhysAddr × Byte)) {m : Cells} (h : Memory.wf m = true) :
    Memory.wf (Cells.overlay ok es m) = true := by
  induction es with
  | nil => exact h
  | cons e es ih =>
    unfold Cells.overlay
    split
    · exact Cells.wf_write _ ih e.1.isLt
    · exact ih

/-! ### The storage of a state -/

theorem State.pageKey_lt (s : State) (p : Byte) : s.pageKey p < pagesBound := by
  unfold State.pageKey pagesBound
  exact BitVec.isLt _

theorem State.wf_setCell {s : State} (p v : Byte) (h : s.wf = true) : (s.setCell p v).wf = true := by
  unfold State.wf at *
  simp only [Bool.and_eq_true] at *
  unfold State.setCell
  split
  · exact ⟨⟨h.1.1, Cells.wf_write v h.1.2 (s.pageKey_lt p)⟩, h.2⟩
  all_goals first
    | exact h
    | exact ⟨⟨Cells.wf_write v h.1.1 p.isLt, h.1.2⟩, h.2⟩

theorem State.wf_setReg {s : State} (a v : Byte) (h : s.wf = true) : (s.setReg a v).wf = true :=
  State.wf_setCell _ _ h

theorem State.wf_setMemByte {s : State} (sp : Space) (a : Word) (v : Byte) (h : s.wf = true) :
    (s.setMemByte sp a v).wf = true := by
  unfold State.wf at *
  simp only [Bool.and_eq_true] at *
  unfold State.setMemByte
  split
  · exact ⟨h.1, Cells.wf_write v h.2 (s.translate sp a).isLt⟩
  · exact h

/-- A store to ram changes one byte of memory and joins the stores of what is in progress. -/
theorem State.setMemByte_ram {s : State} {sp : Space} {a : Word} (v : Byte)
    (h : memKind s.memRegions sp (s.translate sp a) = .ram) :
    s.setMemByte sp a v = { s with
      mem := Cells.write s.mem (s.translate sp a).toNat v
      stores := s.stores ++ [(s.translate sp a, v)] } := by
  simp [State.setMemByte, h]

/-- A store elsewhere than to ram changes nothing. -/
theorem State.setMemByte_not_ram {s : State} {sp : Space} {a : Word} (v : Byte)
    (h : memKind s.memRegions sp (s.translate sp a) ≠ .ram) : s.setMemByte sp a v = s := by
  unfold State.setMemByte
  split
  · exact absurd ‹_› h
  · rfl

theorem State.wf_setMemWord {s : State} (sp : Space) (a v : Word) (h : s.wf = true) :
    (s.setMemWord sp a v).wf = true :=
  State.wf_setMemByte _ _ _ (State.wf_setMemByte _ _ _ h)

theorem State.wf_setSp {s : State} (k : Stack) (v : Word) (h : s.wf = true) : (s.setSp k v).wf = true := by
  cases k <;> exact h

theorem State.wf_applyReset {s : State} (p : ResetParams) (h : s.wf = true) : (applyReset p s).wf = true := by
  unfold State.wf at *
  simp only [Bool.and_eq_true] at *
  exact ⟨⟨Cells.wf_normal .., Cells.wf_normal ..⟩, Cells.wf_overlay _ _ h.2⟩

theorem State.wf_cutShort {s : State} (marks : List Bool) (irq : Option IrqRequest) (h : s.wf = true) :
    (cutShort marks irq s).wf = true := by
  unfold State.wf at *
  simp only [Bool.and_eq_true] at *
  exact ⟨h.1, Cells.wf_land _ _ h.2⟩

/-- The memory of the reset state is canonical. -/
theorem Memory.wf_reset : Memory.wf State.reset.mem = true := rfl

end Sys2Proof.Machine
end

