-- ==== Sys2Proof/Laws/Ops.lean ====
section
/-! SUPPORT. One lemma per shared operation: when it answers, and what. -/

namespace Sys2Proof.Machine

/-! ### Answers -/

@[simp] theorem Res.bind_ok {α β : Type} (a : α) (f : α → Res β) : (Except.ok a >>= f) = f a := rfl

@[simp] theorem Res.bind_error {α β : Type} (e : Refusal) (f : α → Res β) :
    ((Except.error e : Res α) >>= f) = .error e := rfl

/-- A sequence answers exactly when its parts do. -/
theorem Res.bind_eq_ok {α β : Type} {x : Res α} {f : α → Res β} {b : β} :
    (x >>= f) = .ok b ↔ ∃ a, x = .ok a ∧ f a = .ok b := by
  cases x with
  | error e => simp
  | ok a => simp

@[simp] theorem Res.outcome_ok (s : State) : Res.outcome (.ok s) = .next s := rfl

@[simp] theorem Res.outcome_error (e : Refusal) : Res.outcome (.error e) = .refused e := rfl

/-- A meaning ends in a next state exactly when it answers it. -/
@[simp] theorem Res.outcome_eq_next {r : Res State} {t : State} : Res.outcome r = .next t ↔ r = .ok t := by
  cases r with
  | error e => simp
  | ok a => simp

/-- No outcome of an answer is a fault. -/
@[simp] theorem Res.outcome_ne_fault {r : Res State} {f : Fault} : Res.outcome r ≠ .fault f := by
  cases r <;> simp

/-! ### Registers -/

theorem readReg_eq {s : State} {a : Byte} (h : s.reachable a = true) : readReg a s = .ok (s.reg a) := by
  simp_all [readReg, State.reachable]

theorem writeReg_eq {s : State} {a : Byte} (v : Byte) (h : s.reachable a = true) :
    writeReg a v s = .ok (s.setReg a v) := by
  simp_all [writeReg, State.reachable]

theorem readReg_ok_iff {s : State} {a v : Byte} :
    readReg a s = .ok v ↔ s.reachable a = true ∧ v = s.reg a := by
  unfold readReg State.reachable
  cases s.blocked a <;> simp [eq_comm]

theorem writeReg_ok_iff {s t : State} {a v : Byte} :
    writeReg a v s = .ok t ↔ s.reachable a = true ∧ t = s.setReg a v := by
  unfold writeReg State.reachable
  cases s.blocked a <;> simp [eq_comm]

theorem readReg_stop {s : State} {a : Byte} (h : s.reachable a = false) :
    readReg a s = .error (.unsupportedU1 s.stores) := by
  simp_all [readReg, State.reachable]

theorem writeReg_stop {s : State} {a : Byte} (v : Byte) (h : s.reachable a = false) :
    writeReg a v s = .error (.unsupportedU1 s.stores) := by
  simp_all [writeReg, State.reachable]

theorem readPair_eq {s : State} {a : Byte} (h : s.pairReachable a = true) : readPair a s = .ok (s.pair a) := by
  simp only [State.pairReachable, Bool.and_eq_true] at h
  rw [readPair, readReg_eq h.1, readReg_eq h.2]
  rfl

theorem writePair_eq {s : State} {a : Byte} {v : Word} (h : s.pairSettable a v = true) :
    writePair a v s = .ok (s.setPair a v) := by
  simp only [State.pairSettable, Bool.and_eq_true] at h
  rw [writePair, writeReg_eq _ h.1, Res.bind_ok, writeReg_eq _ h.2]
  rfl

theorem readPair_ok_iff {s : State} {a : Byte} {v : Word} :
    readPair a s = .ok v ↔ s.pairReachable a = true ∧ v = s.pair a := by
  simp only [readPair, Res.bind_eq_ok, readReg_ok_iff, State.pairReachable, Bool.and_eq_true, State.pair]
  constructor
  · rintro ⟨h, ⟨ha, rfl⟩, l, ⟨hb, rfl⟩, e⟩
    exact ⟨⟨ha, hb⟩, by simpa using e.symm⟩
  · rintro ⟨⟨ha, hb⟩, rfl⟩
    exact ⟨_, ⟨ha, rfl⟩, _, ⟨hb, rfl⟩, rfl⟩

theorem writePair_ok_iff {s t : State} {a : Byte} {v : Word} :
    writePair a v s = .ok t ↔ s.pairSettable a v = true ∧ t = s.setPair a v := by
  simp only [writePair, Res.bind_eq_ok, writeReg_ok_iff, State.pairSettable, Bool.and_eq_true, State.setPair]
  constructor
  · rintro ⟨u, ⟨ha, rfl⟩, hb, rfl⟩
    exact ⟨⟨ha, hb⟩, rfl⟩
  · rintro ⟨⟨ha, hb⟩, rfl⟩
    exact ⟨_, ⟨ha, rfl⟩, hb, rfl⟩

theorem readW_eq {s : State} {n : WReg} (h : s.wOk n = true) : readW n s = .ok (s.w n) := readReg_eq h

theorem readWW_eq {s : State} {n : WPair} (h : s.wwOk n = true) : readWW n s = .ok (s.ww n) := readPair_eq h

theorem bumpWW_eq {s : State} {n : WPair} {d : Word} (h : s.bumpOk n d = true) :
    bumpWW n d s = .ok (s.bumped n d) := by
  simp only [State.bumpOk, Bool.and_eq_true] at h
  rw [bumpWW, readWW_eq h.1]
  exact writePair_eq h.2

theorem bumpW_eq {s : State} {n : WReg} (h : s.wOk n = true) : bumpW n s = .ok (s.bumpedW n) := by
  rw [bumpW, readW_eq h]
  exact writeReg_eq _ h

/-- Flags do not move the window. -/
@[simp] theorem State.working_setFlags (s : State) (u : FlagUpdate) (n : WReg) :
    (s.setFlags u).working n = s.working n := rfl

@[simp] theorem State.working_setSp (s : State) (k : Stack) (v : Word) (n : WReg) :
    (s.setSp k v).working n = s.working n := by cases k <;> rfl

@[simp] theorem State.working_setSpLow (s : State) (k : Stack) (v : Byte) (n : WReg) :
    (s.setSpLow k v).working n = s.working n := by cases k <;> rfl

@[simp] theorem State.working_setMemByte (s : State) (sp : Space) (a : Word) (v : Byte) (n : WReg) :
    (s.setMemByte sp a v).working n = s.working n := by
  simp [State.working]

@[simp] theorem State.working_setMemWord (s : State) (sp : Space) (a v : Word) (n : WReg) :
    (s.setMemWord sp a v).working n = s.working n := by
  simp [State.working]

@[simp] theorem State.addr_setSp (s : State) (k : Stack) (v : Word) (a : Byte) :
    (s.setSp k v).addr a = s.addr a := by simp [State.addr]

@[simp] theorem State.addr_setSpLow (s : State) (k : Stack) (v a : Byte) :
    (s.setSpLow k v).addr a = s.addr a := by simp [State.addr]

@[simp] theorem State.addr_setMemByte (s : State) (sp : Space) (a : Word) (v b : Byte) :
    (s.setMemByte sp a v).addr b = s.addr b := by simp [State.addr]

@[simp] theorem State.addr_setMemWord (s : State) (sp : Space) (a v : Word) (b : Byte) :
    (s.setMemWord sp a v).addr b = s.addr b := by simp [State.addr]

@[simp] theorem State.reachable_setSp (s : State) (k : Stack) (v : Word) (a : Byte) :
    (s.setSp k v).reachable a = s.reachable a := by simp [State.reachable, State.blocked]

@[simp] theorem State.reachable_setSpLow (s : State) (k : Stack) (v a : Byte) :
    (s.setSpLow k v).reachable a = s.reachable a := by simp [State.reachable, State.blocked]

@[simp] theorem State.reachable_setMemByte (s : State) (sp : Space) (a : Word) (v b : Byte) :
    (s.setMemByte sp a v).reachable b = s.reachable b := by simp [State.reachable, State.blocked]

@[simp] theorem State.reachable_setMemWord (s : State) (sp : Space) (a v : Word) (b : Byte) :
    (s.setMemWord sp a v).reachable b = s.reachable b := by simp [State.reachable, State.blocked]

/-! ### Stacks -/

@[simp] theorem State.inRegfile_setSp (s : State) (k j : Stack) (v : Word) :
    (s.setSp k v).inRegfile j = s.inRegfile j := by cases k <;> cases j <;> rfl

@[simp] theorem State.inRegfile_setSpLow (s : State) (k j : Stack) (v : Byte) :
    (s.setSpLow k v).inRegfile j = s.inRegfile j := by cases k <;> cases j <;> rfl

@[simp] theorem State.inRegfile_setReg (s : State) (k : Stack) (a v : Byte) :
    (s.setReg a v).inRegfile k = s.inRegfile k := by cases k <;> simp [State.inRegfile]

@[simp] theorem State.inRegfile_setMemByte (s : State) (k : Stack) (sp : Space) (a : Word) (v : Byte) :
    (s.setMemByte sp a v).inRegfile k = s.inRegfile k := by cases k <;> simp [State.inRegfile]

@[simp] theorem State.inRegfile_setMemWord (s : State) (k : Stack) (sp : Space) (a v : Word) :
    (s.setMemWord sp a v).inRegfile k = s.inRegfile k := by cases k <;> simp [State.inRegfile]

theorem word_getLsbD (h l : Byte) (i : Nat) :
    (word h l).getLsbD i = if i < 8 then l.getLsbD i else h.getLsbD (i - 8) := by
  have e := BitVec.getLsbD_append (x := h) (y := l) (i := i)
  split
  · rw [if_pos ‹_›] at e
    exact e
  · rw [if_neg ‹_›] at e
    exact e

@[simp] theorem Word.hi_word (h l : Byte) : (word h l).hi = h := by
  apply BitVec.eq_of_getLsbD_eq
  intro i hi
  rw [Word.hi, BitVec.getLsbD_extractLsb', word_getLsbD, if_neg (by omega), show 8 + i - 8 = i by omega]
  simp [hi]

@[simp] theorem Word.lo_word (h l : Byte) : (word h l).lo = l := by
  apply BitVec.eq_of_getLsbD_eq
  intro i hi
  rw [Word.lo, BitVec.getLsbD_extractLsb', word_getLsbD, if_pos (by omega)]
  simp [hi]

@[simp] theorem word_hi_lo (w : Word) : word w.hi w.lo = w := by
  apply BitVec.eq_of_getLsbD_eq
  intro i hi
  rw [word_getLsbD, Word.hi, Word.lo, BitVec.getLsbD_extractLsb', BitVec.getLsbD_extractLsb']
  split
  · simp [‹i < 8›]
  · rw [show 8 + (i - 8) = i by omega]
    simp [show i - 8 < 8 by omega]

@[simp] theorem State.spLow_setSpLow (s : State) (k : Stack) (v : Byte) : (s.setSpLow k v).spLow k = v := by
  simp [State.spLow, State.setSpLow]

theorem push8_eq {s : State} {k : Stack} (v : Byte) (h : s.push8Ok k = true) :
    push8 k v s = .ok (s.pushed8 k v) := by
  unfold push8 State.pushed8
  split
  · simp only [State.push8Ok, ‹s.inRegfile k = true›, Bool.not_true, Bool.false_or] at h
    simp only [State.spLow_setSpLow]
    exact writeReg_eq v (by simpa using h)
  · simp

theorem push16_eq {s : State} {k : Stack} {w : Word} (h : s.push16Ok k w = true) :
    push16 k w s = .ok (s.pushed16 k w) := by
  unfold push16 State.pushed16
  split
  · simp only [State.push16Ok, ‹s.inRegfile k = true›, Bool.not_true, Bool.false_or, Bool.and_eq_true] at h
    simp only [State.spLow_setSpLow]
    rw [writeReg_eq _ (by simpa using h.1), Res.bind_ok]
    exact writeReg_eq _ h.2
  · simp

theorem pop8_eq {s : State} {k : Stack} (h : s.pop8Ok k = true) :
    pop8 k s = .ok (s.top8 k, s.dropped k 1) := by
  unfold pop8 State.top8 State.dropped
  by_cases hr : s.inRegfile k = true
  · simp only [State.pop8Ok, hr, Bool.not_true, Bool.false_or] at h
    simp [hr, readReg_eq h]
  · simp [hr]

theorem pop16_eq {s : State} {k : Stack} (h : s.pop16Ok k = true) :
    pop16 k s = .ok (s.top16 k, s.dropped k 2) := by
  unfold pop16 State.top16 State.dropped
  by_cases hr : s.inRegfile k = true
  · simp only [State.pop16Ok, hr, Bool.not_true, Bool.false_or, Bool.and_eq_true] at h
    rw [if_pos hr, if_pos hr, if_pos hr, readReg_eq h.1, Res.bind_ok, readReg_eq h.2]
    rfl
  · simp [hr]

/-! ### Registers without a special role -/

/-- A write to an ordinary register changes one cell of the register file or of the pages. -/
theorem State.setReg_ordinary {s : State} {a : Byte} (v : Byte) (h : s.ordinary a = true) :
    (regRole (s.addr a) = .plain ∧ s.setReg a v = { s with phys := Cells.write s.phys (s.addr a).toNat v }) ∨
    (regRole (s.addr a) = .paged ∧ s.setReg a v = { s with pages := Cells.write s.pages (s.pageKey (s.addr a)) v }) := by
  simp only [State.ordinary, Bool.and_eq_true, Bool.or_eq_true, decide_eq_true_eq] at h
  rcases h.2 with e | e
  · exact .inl ⟨e, by rw [State.setReg, State.setCell, e]⟩
  · exact .inr ⟨e, by rw [State.setReg, State.setCell, e]⟩

theorem State.working_setReg_ordinary {s : State} {a : Byte} (v : Byte) (h : s.ordinary a = true) (n : WReg) :
    (s.setReg a v).working n = s.working n := by
  rcases State.setReg_ordinary v h with ⟨-, e⟩ | ⟨-, e⟩ <;> rw [e] <;> rfl

theorem State.addr_setReg_ordinary {s : State} {a : Byte} (v : Byte) (h : s.ordinary a = true) (b : Byte) :
    (s.setReg a v).addr b = s.addr b := by
  simp only [State.addr, State.working_setReg_ordinary v h]

theorem State.reachable_setReg_ordinary {s : State} {a : Byte} (v : Byte) (h : s.ordinary a = true) (b : Byte) :
    (s.setReg a v).reachable b = s.reachable b := by
  simp only [State.reachable, State.blocked, State.addr_setReg_ordinary v h]

theorem State.ordinary_setReg_ordinary {s : State} {a : Byte} (v : Byte) (h : s.ordinary a = true) (b : Byte) :
    (s.setReg a v).ordinary b = s.ordinary b := by
  simp only [State.ordinary, State.reachable_setReg_ordinary v h, State.addr_setReg_ordinary v h]

/-- Registers with the paged role stand in different places of the page where their addresses differ. -/
theorem State.pageKey_inj {s : State} {p q : Byte} (hp : regRole p = .paged) (hq : regRole q = .paged)
    (h : s.pageKey p = s.pageKey q) : p = q := by
  have role : ∀ r : Byte, regRole r = .paged → hiNib r = 0xF#4 := by decide
  have split8 : ∀ r : Byte, r = hiNib r ++ loNib r := by decide
  have k : ∀ (x : BitVec 6) (y z : BitVec 4), (x ++ y).toNat = (x ++ z).toNat → y = z := by
    intro x y z e
    have e' := BitVec.eq_of_toNat_eq e
    exact (BitVec.append_right_inj _).1 e'
  rw [split8 p, split8 q, role p hp, role q hq, k _ _ _ h]

/-- A write to an ordinary register is read back, and every register at another address is as before. -/
theorem State.reg_setReg_ordinary {s : State} {a : Byte} (v : Byte) (h : s.ordinary a = true) (b : Byte) :
    (s.setReg a v).reg b = if s.addr b = s.addr a then v else s.reg b := by
  have ha := State.addr_setReg_ordinary v h b
  rw [State.reg, ha, State.reg]
  rcases State.setReg_ordinary v h with ⟨r, e⟩ | ⟨r, e⟩
  · rw [e]
    split
    · rw [‹s.addr b = s.addr a›]; simp only [State.cell, r]; simp
    · have hn : (s.addr b).toNat ≠ (s.addr a).toNat := fun g => ‹¬ s.addr b = s.addr a› (BitVec.eq_of_toNat_eq g)
      unfold State.cell
      split <;> first | rfl | exact Cells.read_write_other _ _ hn
  · rw [e]
    split
    · rw [‹s.addr b = s.addr a›]; simp only [State.cell, r, State.pageKey]; simp
    · unfold State.cell
      split
      · exact Cells.read_write_other _ _ fun g => ‹¬ s.addr b = s.addr a› (State.pageKey_inj ‹_› r g)
      all_goals rfl

/-- A write to an ordinary register leaves all of the state but the register file and the pages. -/
theorem State.setReg_ordinary_frame {s : State} {a : Byte} (v : Byte) (h : s.ordinary a = true) :
    ∃ f g, s.setReg a v = { s with phys := f, pages := g } := by
  rcases State.setReg_ordinary v h with ⟨-, e⟩ | ⟨-, e⟩ <;> exact ⟨_, _, e⟩

theorem State.reachable_of_ordinary {s : State} {a : Byte} (h : s.ordinary a = true) : s.reachable a = true := by
  simp only [State.ordinary, Bool.and_eq_true] at h
  exact h.1

/-! ### Pairs of ordinary registers -/

section
variable {s : State} {a : Byte} (v : Word) (h : s.ordinary a = true) (h' : s.ordinary (a + 1) = true)
include h h'

theorem State.pairReachable_of_ordinary : s.pairReachable a = true := by
  rw [State.pairReachable, State.reachable_of_ordinary h, State.reachable_of_ordinary h']; rfl

theorem State.pairSettable_of_ordinary : s.pairSettable a v = true := by
  rw [State.pairSettable, State.reachable_setReg_ordinary _ h, State.reachable_of_ordinary h,
    State.reachable_of_ordinary h']; rfl

theorem State.addr_setPair_ordinary (b : Byte) : (s.setPair a v).addr b = s.addr b := by
  rw [State.setPair, State.addr_setReg_ordinary _ (by rw [State.ordinary_setReg_ordinary _ h, h']),
    State.addr_setReg_ordinary _ h]

theorem State.ordinary_setPair_ordinary (b : Byte) : (s.setPair a v).ordinary b = s.ordinary b := by
  rw [State.setPair, State.ordinary_setReg_ordinary _ (by rw [State.ordinary_setReg_ordinary _ h, h']),
    State.ordinary_setReg_ordinary _ h]

/-- A write to a pair of ordinary registers is read back, and every register at another address is as before. -/
theorem State.reg_setPair_ordinary (b : Byte) : (s.setPair a v).reg b =
    if s.addr b = s.addr (a + 1) then v.lo else if s.addr b = s.addr a then v.hi else s.reg b := by
  rw [State.setPair, State.reg_setReg_ordinary _ (by rw [State.ordinary_setReg_ordinary _ h, h']),
    State.addr_setReg_ordinary _ h, State.addr_setReg_ordinary _ h, State.reg_setReg_ordinary _ h]

theorem State.setPair_ordinary_frame : ∃ f g, s.setPair a v = { s with phys := f, pages := g } := by
  obtain ⟨f, g, e⟩ := State.setReg_ordinary_frame v.hi h
  obtain ⟨f', g', e'⟩ := State.setReg_ordinary_frame (s := s.setReg a v.hi) (a := a + 1) v.lo
    (by rw [State.ordinary_setReg_ordinary _ h, h'])
  exact ⟨f', g', by rw [State.setPair, e', e]⟩

end

end Sys2Proof.Machine
end

