-- ==== Sys2Proof/Laws/Codec.lean ====
section
/-! SUPPORT. The laws of the fields of an encoding: what the decoder reads from what the encoder writes. -/

namespace Sys2Proof

@[simp] theorem hiNib_nib (h l : BitVec 4) : hiNib (nib h l) = h := by
  revert h l; decide

@[simp] theorem loNib_nib (h l : BitVec 4) : loNib (nib h l) = l := by
  revert h l; decide

@[simp] theorem nib_hiNib_loNib (b : Byte) : nib (hiNib b) (loNib b) = b := by
  revert b; decide

@[simp] theorem nibPair_nibSet {p : WPair} (h : WPair.wf p = true) : nibPair (nibSet p) = p := by
  revert p; decide

theorem nibPair_wf (n : BitVec 4) : WPair.wf (nibPair n) = true := by
  revert n; decide

@[simp] theorem nibFlag_nibSet (p : WPair) : nibFlag (nibSet p) = true := by
  revert p; decide

@[simp] theorem nibFlag_of_wf {p : WPair} (h : WPair.wf p = true) : nibFlag p = false := by
  revert p; decide

@[simp] theorem nibPair_of_wf {p : WPair} (h : WPair.wf p = true) : nibPair p = p := by
  revert p; decide

theorem WPair.wf_of_nibFlag {n : BitVec 4} (h : nibFlag n = false) : WPair.wf n = true := by
  revert n; decide

theorem nibSet_nibPair {n : BitVec 4} (h : nibFlag n = true) : nibSet (nibPair n) = n := by
  revert n; decide

@[simp] theorem bytePair_byteSet {p : RegPair} (h : RegPair.wf p = true) : bytePair (byteSet p) = p := by
  revert p; decide

theorem bytePair_wf (b : Byte) : RegPair.wf (bytePair b) = true := by
  revert b; decide

@[simp] theorem byteFlag_byteSet (p : RegPair) : byteFlag (byteSet p) = true := by
  revert p; decide

@[simp] theorem byteFlag_of_wf {p : RegPair} (h : RegPair.wf p = true) : byteFlag p = false := by
  revert p; decide

theorem RegPair.wf_of_byteFlag {b : Byte} (h : byteFlag b = false) : RegPair.wf b = true := by
  revert b; decide

theorem byteSet_bytePair {b : Byte} (h : byteFlag b = true) : byteSet (bytePair b) = b := by
  revert b; decide

@[simp] theorem byteFlag_nib (h l : BitVec 4) : byteFlag (nib h l) = nibFlag l := by
  revert h l; decide

@[simp] theorem bitNum_bitByte (b : BitVec 3) (f : Bool) (r : WReg) : bitNum (bitByte b f r) = b := by
  revert b f r; decide

@[simp] theorem bitFlag_bitByte (b : BitVec 3) (f : Bool) (r : WReg) : bitFlag (bitByte b f r) = f := by
  revert b f r; decide

@[simp] theorem loNib_bitByte (b : BitVec 3) (f : Bool) (r : WReg) : loNib (bitByte b f r) = r := by
  revert b f r; decide

theorem bitByte_fields (b : Byte) : bitByte (bitNum b) (bitFlag b) (loNib b) = b := by
  revert b; decide

@[simp] theorem AluOp.ofK_k (op : AluOp) : AluOp.ofK op.k = some op := by
  cases op <;> rfl

theorem AluOp.k_of_ofK {k : BitVec 4} {op : AluOp} (h : AluOp.ofK k = some op) : op.k = k := by
  revert k op; decide +revert

theorem AluOp.k_ne_F (op : AluOp) : op.k ≠ 0xF#4 := by
  cases op <;> decide

/-- Decoding reads its bytes from the front. -/
@[simp] theorem decodeAld_k (op : AluOp) (f : KByteForm) (rest : List Byte) :
    decodeAld op.k f rest = .ok (Instr.ofAluByte op (.k f), rest) := by
  simp [decodeAld, AluOp.k_ne_F]

@[simp] theorem decodeAldw_k (op : AluOp) (f : KWordForm) (rest : List Byte) :
    decodeAldw op.k f rest = .ok (Instr.ofAluWord op (.k f), rest) := by
  simp [decodeAldw, AluOp.k_ne_F]

@[simp] theorem decodeAld_F (f : KByteForm) (rest : List Byte) :
    decodeAld 0xF#4 f rest = .ok (.ld (.k f), rest) := rfl

@[simp] theorem decodeAldw_F (f : KWordForm) (rest : List Byte) :
    decodeAldw 0xF#4 f rest = .ok (.ldw (.k f), rest) := rfl

@[simp] theorem word_hi_lo' (w : Word) : word w.hi w.lo = w := Machine.word_hi_lo w

/-- The instruction of an operation encodes as the operation's nibble says. -/
@[simp] theorem encode_ofAluByte (op : AluOp) (f : AluByteForm) :
    encode (Instr.ofAluByte op f) = encodeAluByte op f := by cases op <;> rfl

@[simp] theorem encode_ofAluWord (op : AluOp) (f : AluWordForm) :
    encode (Instr.ofAluWord op f) = encodeAluWord op f := by cases op <;> rfl

@[simp] theorem wf_ofAluByte (op : AluOp) (f : AluByteForm) :
    (Instr.ofAluByte op f).wf = f.wf := by cases op <;> rfl

@[simp] theorem wf_ofAluWord (op : AluOp) (f : AluWordForm) :
    (Instr.ofAluWord op f).wf = f.wf := by cases op <;> rfl

/-! ### The rule of each first byte (30_encoding.md R104 to R119) -/

theorem decode_nib_0 (h : BitVec 4) (bs : List Byte) : decode (nib h 0x0#4 :: bs) = decodeX0 h bs := by
  simp [decode, read1]

theorem decode_nib_1 (h : BitVec 4) (bs : List Byte) : decode (nib h 0x1#4 :: bs) = decodeX1 h bs := by
  simp [decode, read1]

theorem decode_nib_2 (h : BitVec 4) (bs : List Byte) : decode (nib h 0x2#4 :: bs) = decodeX2 h bs := by
  simp [decode, read1]

theorem decode_nib_3 (h : BitVec 4) (bs : List Byte) : decode (nib h 0x3#4 :: bs) = decodeX3 h bs := by
  simp [decode, read1]

theorem decode_nib_4 (h : BitVec 4) (bs : List Byte) : decode (nib h 0x4#4 :: bs) = decodeX4 h bs := by
  simp [decode, read1]

theorem decode_nib_5 (h : BitVec 4) (bs : List Byte) : decode (nib h 0x5#4 :: bs) = decodeX5 h bs := by
  simp [decode, read1]

theorem decode_nib_6 (h : BitVec 4) (bs : List Byte) : decode (nib h 0x6#4 :: bs) = decodeX6 h bs := by
  simp [decode, read1]

theorem decode_nib_7 (h : BitVec 4) (bs : List Byte) : decode (nib h 0x7#4 :: bs) = decodeX7 h bs := by
  simp [decode, read1]

theorem decode_nib_E (h : BitVec 4) (bs : List Byte) : decode (nib h 0xE#4 :: bs) = decodeXE h bs := by
  simp [decode, read1]

theorem decode_nib_F (h : BitVec 4) (bs : List Byte) : decode (nib h 0xF#4 :: bs) = decodeXF h bs := by
  simp [decode, read1]

theorem decode_nib_8 (h : BitVec 4) (b : Byte) (bs : List Byte) :
    decode (nib h 0x8#4 :: b :: bs) = .ok (.ld (.x8 h b), bs) := by
  simp [decode, read1, take1]

theorem decode_nib_9 (h : BitVec 4) (b : Byte) (bs : List Byte) :
    decode (nib h 0x9#4 :: b :: bs) = .ok (.ld (.x9 b h), bs) := by
  simp [decode, read1, take1]

theorem decode_nib_A (h : BitVec 4) (b : Byte) (bs : List Byte) :
    decode (nib h 0xA#4 :: b :: bs) = .ok (.djnz h b, bs) := by
  simp [decode, read1, take1]

theorem decode_nib_B (h : BitVec 4) (b : Byte) (bs : List Byte) :
    decode (nib h 0xB#4 :: b :: bs) = .ok (.ofJr h b, bs) := by
  simp [decode, read1, take1]

theorem decode_nib_C (h : BitVec 4) (b : Byte) (bs : List Byte) :
    decode (nib h 0xC#4 :: b :: bs) = .ok (.ld (.xC h b), bs) := by
  simp [decode, read1, take1]

theorem decode_nib_D (h : BitVec 4) (b c : Byte) (bs : List Byte) :
    decode (nib h 0xD#4 :: b :: c :: bs) = .ok (.ofJp h (word b c), bs) := by
  simp [decode, read1, take2, read2]

theorem decode_00 (bs : List Byte) : decode (0x00#8 :: bs) = decodeX0 0x0#4 bs := rfl
theorem decode_01 (bs : List Byte) : decode (0x01#8 :: bs) = decodeX1 0x0#4 bs := rfl
theorem decode_06 (bs : List Byte) : decode (0x06#8 :: bs) = decodeX6 0x0#4 bs := rfl
theorem decode_0F (bs : List Byte) : decode (0x0F#8 :: bs) = decodeXF 0x0#4 bs := rfl
theorem decode_10 (bs : List Byte) : decode (0x10#8 :: bs) = decodeX0 0x1#4 bs := rfl
theorem decode_11 (bs : List Byte) : decode (0x11#8 :: bs) = decodeX1 0x1#4 bs := rfl
theorem decode_16 (bs : List Byte) : decode (0x16#8 :: bs) = decodeX6 0x1#4 bs := rfl
theorem decode_1F (bs : List Byte) : decode (0x1F#8 :: bs) = decodeXF 0x1#4 bs := rfl
theorem decode_26 (bs : List Byte) : decode (0x26#8 :: bs) = decodeX6 0x2#4 bs := rfl
theorem decode_2F (bs : List Byte) : decode (0x2F#8 :: bs) = decodeXF 0x2#4 bs := rfl
theorem decode_36 (bs : List Byte) : decode (0x36#8 :: bs) = decodeX6 0x3#4 bs := rfl
theorem decode_3F (bs : List Byte) : decode (0x3F#8 :: bs) = decodeXF 0x3#4 bs := rfl
theorem decode_46 (bs : List Byte) : decode (0x46#8 :: bs) = decodeX6 0x4#4 bs := rfl
theorem decode_4F (bs : List Byte) : decode (0x4F#8 :: bs) = decodeXF 0x4#4 bs := rfl
theorem decode_56 (bs : List Byte) : decode (0x56#8 :: bs) = decodeX6 0x5#4 bs := rfl
theorem decode_5F (bs : List Byte) : decode (0x5F#8 :: bs) = decodeXF 0x5#4 bs := rfl
theorem decode_60 (bs : List Byte) : decode (0x60#8 :: bs) = decodeX0 0x6#4 bs := rfl
theorem decode_61 (bs : List Byte) : decode (0x61#8 :: bs) = decodeX1 0x6#4 bs := rfl
theorem decode_66 (bs : List Byte) : decode (0x66#8 :: bs) = decodeX6 0x6#4 bs := rfl
theorem decode_6F (bs : List Byte) : decode (0x6F#8 :: bs) = decodeXF 0x6#4 bs := rfl
theorem decode_72 (bs : List Byte) : decode (0x72#8 :: bs) = decodeX2 0x7#4 bs := rfl
theorem decode_73 (bs : List Byte) : decode (0x73#8 :: bs) = decodeX3 0x7#4 bs := rfl
theorem decode_74 (bs : List Byte) : decode (0x74#8 :: bs) = decodeX4 0x7#4 bs := rfl
theorem decode_75 (bs : List Byte) : decode (0x75#8 :: bs) = decodeX5 0x7#4 bs := rfl
theorem decode_76 (bs : List Byte) : decode (0x76#8 :: bs) = decodeX6 0x7#4 bs := rfl
theorem decode_77 (bs : List Byte) : decode (0x77#8 :: bs) = decodeX7 0x7#4 bs := rfl
theorem decode_7E (bs : List Byte) : decode (0x7E#8 :: bs) = decodeXE 0x7#4 bs := rfl
theorem decode_7F (bs : List Byte) : decode (0x7F#8 :: bs) = decodeXF 0x7#4 bs := rfl
theorem decode_86 (bs : List Byte) : decode (0x86#8 :: bs) = decodeX6 0x8#4 bs := rfl
theorem decode_8F (bs : List Byte) : decode (0x8F#8 :: bs) = decodeXF 0x8#4 bs := rfl
theorem decode_96 (bs : List Byte) : decode (0x96#8 :: bs) = decodeX6 0x9#4 bs := rfl
theorem decode_9F (bs : List Byte) : decode (0x9F#8 :: bs) = decodeXF 0x9#4 bs := rfl
theorem decode_A6 (bs : List Byte) : decode (0xA6#8 :: bs) = decodeX6 0xA#4 bs := rfl
theorem decode_AF (bs : List Byte) : decode (0xAF#8 :: bs) = decodeXF 0xA#4 bs := rfl
theorem decode_B2 (bs : List Byte) : decode (0xB2#8 :: bs) = decodeX2 0xB#4 bs := rfl
theorem decode_B3 (bs : List Byte) : decode (0xB3#8 :: bs) = decodeX3 0xB#4 bs := rfl
theorem decode_B4 (bs : List Byte) : decode (0xB4#8 :: bs) = decodeX4 0xB#4 bs := rfl
theorem decode_B5 (bs : List Byte) : decode (0xB5#8 :: bs) = decodeX5 0xB#4 bs := rfl
theorem decode_B6 (bs : List Byte) : decode (0xB6#8 :: bs) = decodeX6 0xB#4 bs := rfl
theorem decode_B7 (bs : List Byte) : decode (0xB7#8 :: bs) = decodeX7 0xB#4 bs := rfl
theorem decode_BE (bs : List Byte) : decode (0xBE#8 :: bs) = decodeXE 0xB#4 bs := rfl
theorem decode_BF (bs : List Byte) : decode (0xBF#8 :: bs) = decodeXF 0xB#4 bs := rfl
theorem decode_C2 (bs : List Byte) : decode (0xC2#8 :: bs) = decodeX2 0xC#4 bs := rfl
theorem decode_C3 (bs : List Byte) : decode (0xC3#8 :: bs) = decodeX3 0xC#4 bs := rfl
theorem decode_C4 (bs : List Byte) : decode (0xC4#8 :: bs) = decodeX4 0xC#4 bs := rfl
theorem decode_C5 (bs : List Byte) : decode (0xC5#8 :: bs) = decodeX5 0xC#4 bs := rfl
theorem decode_C6 (bs : List Byte) : decode (0xC6#8 :: bs) = decodeX6 0xC#4 bs := rfl
theorem decode_C7 (bs : List Byte) : decode (0xC7#8 :: bs) = decodeX7 0xC#4 bs := rfl
theorem decode_CE (bs : List Byte) : decode (0xCE#8 :: bs) = decodeXE 0xC#4 bs := rfl
theorem decode_CF (bs : List Byte) : decode (0xCF#8 :: bs) = decodeXF 0xC#4 bs := rfl
theorem decode_D2 (bs : List Byte) : decode (0xD2#8 :: bs) = decodeX2 0xD#4 bs := rfl
theorem decode_D3 (bs : List Byte) : decode (0xD3#8 :: bs) = decodeX3 0xD#4 bs := rfl
theorem decode_D4 (bs : List Byte) : decode (0xD4#8 :: bs) = decodeX4 0xD#4 bs := rfl
theorem decode_D5 (bs : List Byte) : decode (0xD5#8 :: bs) = decodeX5 0xD#4 bs := rfl
theorem decode_D6 (bs : List Byte) : decode (0xD6#8 :: bs) = decodeX6 0xD#4 bs := rfl
theorem decode_D7 (bs : List Byte) : decode (0xD7#8 :: bs) = decodeX7 0xD#4 bs := rfl
theorem decode_DE (bs : List Byte) : decode (0xDE#8 :: bs) = decodeXE 0xD#4 bs := rfl
theorem decode_DF (bs : List Byte) : decode (0xDF#8 :: bs) = decodeXF 0xD#4 bs := rfl
theorem decode_E2 (bs : List Byte) : decode (0xE2#8 :: bs) = decodeX2 0xE#4 bs := rfl
theorem decode_E3 (bs : List Byte) : decode (0xE3#8 :: bs) = decodeX3 0xE#4 bs := rfl
theorem decode_E4 (bs : List Byte) : decode (0xE4#8 :: bs) = decodeX4 0xE#4 bs := rfl
theorem decode_E5 (bs : List Byte) : decode (0xE5#8 :: bs) = decodeX5 0xE#4 bs := rfl
theorem decode_E6 (bs : List Byte) : decode (0xE6#8 :: bs) = decodeX6 0xE#4 bs := rfl
theorem decode_E7 (bs : List Byte) : decode (0xE7#8 :: bs) = decodeX7 0xE#4 bs := rfl
theorem decode_EE (bs : List Byte) : decode (0xEE#8 :: bs) = decodeXE 0xE#4 bs := rfl
theorem decode_EF (bs : List Byte) : decode (0xEF#8 :: bs) = decodeXF 0xE#4 bs := rfl
theorem decode_F2 (bs : List Byte) : decode (0xF2#8 :: bs) = decodeX2 0xF#4 bs := rfl
theorem decode_F3 (bs : List Byte) : decode (0xF3#8 :: bs) = decodeX3 0xF#4 bs := rfl
theorem decode_F4 (bs : List Byte) : decode (0xF4#8 :: bs) = decodeX4 0xF#4 bs := rfl
theorem decode_F5 (bs : List Byte) : decode (0xF5#8 :: bs) = decodeX5 0xF#4 bs := rfl
theorem decode_F6 (bs : List Byte) : decode (0xF6#8 :: bs) = decodeX6 0xF#4 bs := rfl
theorem decode_F7 (bs : List Byte) : decode (0xF7#8 :: bs) = decodeX7 0xF#4 bs := rfl
theorem decode_FE (bs : List Byte) : decode (0xFE#8 :: bs) = decodeXE 0xF#4 bs := rfl
theorem decode_FF (bs : List Byte) : decode (0xFF#8 :: bs) = decodeXF 0xF#4 bs := rfl

end Sys2Proof
end

