-- ==== Sys2Proof/Laws/Forms.lean ====
section
/-! SUPPORT. The parts of every operand form, where the registers it reads are reachable: each answers what the
tables of 41_alu2.md R201, R202 and 40_load.md say. -/

namespace Sys2Proof.Machine

/-! ### Parts shared by the forms -/

theorem eaShort_eq {s : State} (n : Byte) {rrx : WPair} (h : s.wwOk rrx = true) :
    eaShort n rrx s = .ok (s.ww rrx + n.signExtend 16) := by
  rw [eaShort, readWW_eq h]; rfl

theorem eaLong_eq {s : State} (nn : Word) {rrx : WPair} (h : s.wwOk rrx = true) :
    eaLong nn rrx s = .ok (s.ww rrx + nn) := by
  rw [eaLong, readWW_eq h]; rfl

theorem eaPair_eq {s : State} {rrn rrx : WPair} (hx : s.wwOk rrx = true) (hn : s.wwOk rrn = true) :
    eaPair rrn rrx s = .ok (s.ww rrx + s.ww rrn) := by
  rw [eaPair, readWW_eq hx, Res.bind_ok, readWW_eq hn]; rfl

theorem eaReg_eq {s : State} (n : Byte) {rx : WReg} (h : s.wOk rx = true) :
    eaReg n rx s = .ok (n + s.w rx) := by
  rw [eaReg, readW_eq h]; rfl

theorem evenAddr_eq {a : Byte} (h : byteFlag a = false) : evenAddr a = .ok a := by
  simp [evenAddr, h]

theorem evenAddr_odd {a : Byte} (h : byteFlag a = true) : evenAddr a = .error .unsupportedU2 := by
  simp [evenAddr, h]

theorem readDst8_eq {s : State} {l : Loc} (h : s.byteOk l = true) : readDst8 l s = .ok (s.byteAt l) := by
  cases l with
  | reg a => exact readReg_eq h
  | mem a => rfl

theorem readDst16_eq {s : State} {l : Loc} (h : s.wordOk l = true) : readDst16 l s = .ok (s.wordAt l) := by
  cases l with
  | reg a => exact readPair_eq h
  | mem a => rfl

theorem store8_eq {s : State} {l : Loc} (v : Byte) (h : s.byteOk l = true) : store8 l v s = .ok (s.putByte l v) := by
  cases l with
  | reg a => exact writeReg_eq v h
  | mem a => rfl

theorem store16_eq {s : State} {l : Loc} {v : Word} (h : s.putWordOk l v = true) :
    store16 l v s = .ok (s.putWord l v) := by
  cases l with
  | reg a => exact writePair_eq h
  | mem a => rfl

/-! ### Byte forms -/

theorem KByteForm.pre_eq {f : KByteForm} {s : State} (h : KByteForm.startOk f s = true) :
    KByteForm.pre f s = .ok (KByteForm.started f s) := by
  cases f <;> first | rfl | exact bumpWW_eq h

theorem KByteForm.dst_eq {f : KByteForm} {s : State} (h : KByteForm.readable f s = true) :
    KByteForm.dst f s = .ok (KByteForm.loc f s) := by
  cases f <;> simp_all [KByteForm.dst, KByteForm.loc, KByteForm.readable, readPair_eq, readW_eq, readWW_eq,
    eaPair_eq, eaShort_eq, eaLong_eq]

theorem KByteForm.src_eq {f : KByteForm} {s : State} (h : KByteForm.readable f s = true) :
    KByteForm.src f s = .ok (KByteForm.value f s) := by
  cases f <;> simp_all [KByteForm.src, KByteForm.value, KByteForm.readable, readReg_eq, readW_eq, readWW_eq,
    eaPair_eq, eaShort_eq, eaLong_eq]

theorem KByteForm.post_eq {f : KByteForm} {s : State} (h : KByteForm.finishOk f s = true) :
    KByteForm.post f s = .ok (KByteForm.finished f s) := by
  cases f <;> first | rfl | exact bumpWW_eq h

theorem AluByteForm.pre_eq {f : AluByteForm} {s : State} (h : AluByteForm.startOk f s = true) :
    AluByteForm.pre f s = .ok (AluByteForm.started f s) := by
  cases f <;> first | rfl | exact KByteForm.pre_eq h

theorem AluByteForm.dst_eq {f : AluByteForm} {s : State} (h : AluByteForm.readable f s = true) :
    AluByteForm.dst f s = .ok (AluByteForm.loc f s) := by
  cases f <;> first
    | exact KByteForm.dst_eq h
    | simp_all [AluByteForm.dst, AluByteForm.loc, AluByteForm.readable]

theorem AluByteForm.src_eq {f : AluByteForm} {s : State} (h : AluByteForm.readable f s = true) :
    AluByteForm.src f s = .ok (AluByteForm.value f s) := by
  cases f <;> first
    | exact KByteForm.src_eq h
    | simp_all [AluByteForm.src, AluByteForm.value, AluByteForm.readable, readReg_eq, readW_eq]

theorem AluByteForm.post_eq {f : AluByteForm} {s : State} (h : AluByteForm.finishOk f s = true) :
    AluByteForm.post f s = .ok (AluByteForm.finished f s) := by
  cases f <;> first | rfl | exact KByteForm.post_eq h

/-! ### Word forms -/

theorem KWordForm.pre_eq {f : KWordForm} {s : State} (h : KWordForm.startOk f s = true) :
    KWordForm.pre f s = .ok (KWordForm.started f s) := by
  cases f <;> first | rfl | exact bumpWW_eq h

theorem KWordForm.dst_eq {f : KWordForm} {s : State} (h : KWordForm.readable f s = true)
    (he : KWordForm.even f s = true) :
    KWordForm.dst f s = .ok (KWordForm.loc f s) := by
  cases f <;> simp_all [KWordForm.dst, KWordForm.loc, KWordForm.readable, KWordForm.even, readW_eq, readWW_eq,
    eaPair_eq, eaShort_eq, eaLong_eq, evenAddr_eq]

theorem KWordForm.src_eq {f : KWordForm} {s : State} (h : KWordForm.readable f s = true)
    (he : KWordForm.even f s = true) :
    KWordForm.src f s = .ok (KWordForm.value f s) := by
  cases f <;> simp_all [KWordForm.src, KWordForm.value, KWordForm.readable, KWordForm.even, readPair_eq, readW_eq,
    readWW_eq, eaPair_eq, eaShort_eq, eaLong_eq, evenAddr_eq]

theorem KWordForm.post_eq {f : KWordForm} {s : State} (h : KWordForm.finishOk f s = true) :
    KWordForm.post f s = .ok (KWordForm.finished f s) := by
  cases f <;> first | rfl | exact bumpWW_eq h

theorem AluWordForm.pre_eq {f : AluWordForm} {s : State} (h : AluWordForm.startOk f s = true) :
    AluWordForm.pre f s = .ok (AluWordForm.started f s) := by
  cases f <;> first | rfl | exact KWordForm.pre_eq h

theorem AluWordForm.dst_eq {f : AluWordForm} {s : State} (h : AluWordForm.readable f s = true)
    (he : AluWordForm.even f s = true) :
    AluWordForm.dst f s = .ok (AluWordForm.loc f s) := by
  cases f <;> first
    | exact KWordForm.dst_eq h he
    | simp_all [AluWordForm.dst, AluWordForm.loc, AluWordForm.readable, AluWordForm.even, readWW_eq]

theorem AluWordForm.src_eq {f : AluWordForm} {s : State} (h : AluWordForm.readable f s = true)
    (he : AluWordForm.even f s = true) :
    AluWordForm.src f s = .ok (AluWordForm.value f s) := by
  cases f <;> first
    | exact KWordForm.src_eq h he
    | simp_all [AluWordForm.src, AluWordForm.value, AluWordForm.readable, AluWordForm.even, readPair_eq, readWW_eq]

theorem AluWordForm.post_eq {f : AluWordForm} {s : State} (h : AluWordForm.finishOk f s = true) :
    AluWordForm.post f s = .ok (AluWordForm.finished f s) := by
  cases f <;> first | rfl | exact KWordForm.post_eq h

/-! ### LD and LDW -/

theorem LdForm.pre_eq {f : LdForm} {s : State} (h : LdForm.startOk f s = true) :
    LdForm.pre f s = .ok (LdForm.started f s) := by
  cases f <;> first | rfl | exact KByteForm.pre_eq h

theorem LdForm.dst_eq {f : LdForm} {s : State} (h : LdForm.readable f s = true) :
    LdForm.dst f s = .ok (LdForm.loc f s) := by
  cases f <;> first
    | exact KByteForm.dst_eq h
    | simp_all [LdForm.dst, LdForm.loc, LdForm.readable, readW_eq, readWW_eq,
      eaReg_eq]

theorem LdForm.src_eq {f : LdForm} {s : State} (h : LdForm.readable f s = true) :
    LdForm.src f s = .ok (LdForm.value f s) := by
  cases f <;> first
    | exact KByteForm.src_eq h
    | simp_all [LdForm.src, LdForm.value, LdForm.readable, readReg_eq, readW_eq, readWW_eq,
      eaReg_eq]

theorem LdForm.post_eq {f : LdForm} {s : State} (h : LdForm.finishOk f s = true) :
    LdForm.post f s = .ok (LdForm.finished f s) := by
  cases f <;> first
    | rfl
    | exact KByteForm.post_eq h
    | (simp only [LdForm.finishOk, Bool.and_eq_true] at h
       simp only [LdForm.post, LdForm.finished]
       rw [bumpW_eq h.1, Res.bind_ok, bumpWW_eq h.2])

theorem LdwForm.pre_eq {f : LdwForm} {s : State} (h : LdwForm.startOk f s = true) :
    LdwForm.pre f s = .ok (LdwForm.started f s) := by
  cases f <;> first | rfl | exact KWordForm.pre_eq h

theorem LdwForm.dst_eq {f : LdwForm} {s : State} (h : LdwForm.readable f s = true)
    (he : LdwForm.even f s = true) :
    LdwForm.dst f s = .ok (LdwForm.loc f s) := by
  cases f <;> first
    | exact KWordForm.dst_eq h he
    | simp_all [LdwForm.dst, LdwForm.loc, LdwForm.readable, LdwForm.even, readWW_eq,
      eaReg_eq, evenAddr_eq]

theorem LdwForm.src_eq {f : LdwForm} {s : State} (h : LdwForm.readable f s = true)
    (he : LdwForm.even f s = true) :
    LdwForm.src f s = .ok (LdwForm.value f s) := by
  cases f <;> first
    | exact KWordForm.src_eq h he
    | simp_all [LdwForm.src, LdwForm.value, LdwForm.readable, LdwForm.even, readPair_eq, readWW_eq,
      eaReg_eq, evenAddr_eq]

theorem LdwForm.post_eq {f : LdwForm} {s : State} (h : LdwForm.finishOk f s = true) :
    LdwForm.post f s = .ok (LdwForm.finished f s) := by
  cases f <;> first | rfl | exact KWordForm.post_eq h

/-! ### Other operands -/

theorem targetAddr_eq {s : State} {t : ByteTarget} (h : ∀ r, t = .indirect r → s.reachable r = true) :
    targetAddr t s = .ok (s.target t) := by
  cases t with
  | direct r => rfl
  | indirect r => exact readReg_eq (h r rfl)

theorem farTarget_eq {s : State} {f : FarForm} (h : s.farReachable f = true) : farTarget f s = .ok (s.far f) := by
  cases f with
  | direct seg nn => rfl
  | indirect r rr =>
    simp only [State.farReachable, Bool.and_eq_true] at h
    simp only [farTarget, readWW]
    rw [readReg_eq h.1, Res.bind_ok, readPair_eq h.2]
    rfl

end Sys2Proof.Machine
end

