-- ==== Sys2Proof/Laws/PerInstr.lean ====
section
/-! SUPPORT. One statement about every instruction: its encoding has one to six bytes
(spec/30_encoding.md R90, R103), one lemma for each constructor. -/

namespace Sys2Proof.Laws

theorem bounds {n : Nat} (h : Nat.ble 1 n = true) (h' : Nat.ble n 6 = true) : 1 ≤ n ∧ n ≤ 6 :=
  ⟨Nat.le_of_ble_eq_true h, Nat.le_of_ble_eq_true h'⟩

theorem kbyte_length (k : BitVec 4) (f : KByteForm) :
    1 ≤ (encodeKByte k f).length ∧ (encodeKByte k f).length ≤ 6 := by
  cases f <;> exact bounds rfl rfl

theorem kword_length (k : BitVec 4) (f : KWordForm) :
    1 ≤ (encodeKWord k f).length ∧ (encodeKWord k f).length ≤ 6 := by
  cases f <;> exact bounds rfl rfl

theorem aluByte_length (op : AluOp) (f : AluByteForm) :
    1 ≤ (encodeAluByte op f).length ∧ (encodeAluByte op f).length ≤ 6 := by
  cases f with
  | k f => exact kbyte_length _ f
  | _ => exact bounds rfl rfl

theorem aluWord_length (op : AluOp) (f : AluWordForm) :
    1 ≤ (encodeAluWord op f).length ∧ (encodeAluWord op f).length ≤ 6 := by
  cases f with
  | k f => exact kword_length _ f
  | _ => exact bounds rfl rfl

theorem ld_length (f : LdForm) : 1 ≤ (encodeLd f).length ∧ (encodeLd f).length ≤ 6 := by
  cases f with
  | k f => exact kbyte_length _ f
  | _ => exact bounds rfl rfl

theorem ldw_length (f : LdwForm) : 1 ≤ (encodeLdw f).length ∧ (encodeLdw f).length ≤ 6 := by
  cases f with
  | k f => exact kword_length _ f
  | _ => exact bounds rfl rfl

theorem target_length (h : BitVec 4) (t : ByteTarget) :
    1 ≤ (encodeTarget h t).length ∧ (encodeTarget h t).length ≤ 6 := by
  cases t <;> exact bounds rfl rfl

namespace EncodedLength

/-- The encoding of an instruction has one to six bytes. -/
def Statement (i : Instr) : Prop := 1 ≤ (encode i).length ∧ (encode i).length ≤ 6

theorem or (f : AluByteForm) : Statement (.or f) := aluByte_length _ f

theorem and (f : AluByteForm) : Statement (.and f) := aluByte_length _ f

theorem sbc (f : AluByteForm) : Statement (.sbc f) := aluByte_length _ f

theorem adc (f : AluByteForm) : Statement (.adc f) := aluByte_length _ f

theorem add (f : AluByteForm) : Statement (.add f) := aluByte_length _ f

theorem sub (f : AluByteForm) : Statement (.sub f) := aluByte_length _ f

theorem xor (f : AluByteForm) : Statement (.xor f) := aluByte_length _ f

theorem tcm (f : AluByteForm) : Statement (.tcm f) := aluByte_length _ f

theorem cp (f : AluByteForm) : Statement (.cp f) := aluByte_length _ f

theorem tm (f : AluByteForm) : Statement (.tm f) := aluByte_length _ f

theorem orw (f : AluWordForm) : Statement (.orw f) := aluWord_length _ f

theorem andw (f : AluWordForm) : Statement (.andw f) := aluWord_length _ f

theorem sbcw (f : AluWordForm) : Statement (.sbcw f) := aluWord_length _ f

theorem adcw (f : AluWordForm) : Statement (.adcw f) := aluWord_length _ f

theorem addw (f : AluWordForm) : Statement (.addw f) := aluWord_length _ f

theorem subw (f : AluWordForm) : Statement (.subw f) := aluWord_length _ f

theorem xorw (f : AluWordForm) : Statement (.xorw f) := aluWord_length _ f

theorem tcmw (f : AluWordForm) : Statement (.tcmw f) := aluWord_length _ f

theorem cpw (f : AluWordForm) : Statement (.cpw f) := aluWord_length _ f

theorem tmw (f : AluWordForm) : Statement (.tmw f) := aluWord_length _ f

theorem ld (f : LdForm) : Statement (.ld f) := ld_length f

theorem ldw (f : LdwForm) : Statement (.ldw f) := ldw_length f

theorem ldpp (rrd rrs : WPair) : Statement (.ldpp rrd rrs) := bounds rfl rfl

theorem lddp (rrd rrs : WPair) : Statement (.lddp rrd rrs) := bounds rfl rfl

theorem ldpd (rrd rrs : WPair) : Statement (.ldpd rrd rrs) := bounds rfl rfl

theorem lddd (rrd rrs : WPair) : Statement (.lddd rrd rrs) := bounds rfl rfl

theorem inc (t : ByteTarget) : Statement (.inc t) := target_length _ t

theorem dec (t : ByteTarget) : Statement (.dec t) := target_length _ t

theorem clr (t : ByteTarget) : Statement (.clr t) := target_length _ t

theorem cpl (t : ByteTarget) : Statement (.cpl t) := target_length _ t

theorem swap (t : ByteTarget) : Statement (.swap t) := target_length _ t

theorem da (t : ByteTarget) : Statement (.da t) := target_length _ t

theorem rlc (t : ByteTarget) : Statement (.rlc t) := target_length _ t

theorem rrc (t : ByteTarget) : Statement (.rrc t) := target_length _ t

theorem rol (t : ByteTarget) : Statement (.rol t) := target_length _ t

theorem ror (t : ByteTarget) : Statement (.ror t) := target_length _ t

theorem sra (t : ByteTarget) : Statement (.sra t) := target_length _ t

theorem incw (rr : RegPair) : Statement (.incw rr) := bounds rfl rfl

theorem decw (rr : RegPair) : Statement (.decw rr) := bounds rfl rfl

theorem rlcw (rr : RegPair) : Statement (.rlcw rr) := bounds rfl rfl

theorem rrcw (rr : RegPair) : Statement (.rrcw rr) := bounds rfl rfl

theorem sraw (rr : RegPair) : Statement (.sraw rr) := bounds rfl rfl

theorem push (f : PushForm) : Statement (.push f) := by
  rcases f with (_ | _) | _ <;> exact bounds rfl rfl

theorem pushu (f : PushForm) : Statement (.pushu f) := by
  rcases f with (_ | _) | _ <;> exact bounds rfl rfl

theorem pushw (f : PushWordForm) : Statement (.pushw f) := by
  cases f <;> exact bounds rfl rfl

theorem pushuw (f : PushWordForm) : Statement (.pushuw f) := by
  cases f <;> exact bounds rfl rfl

theorem pop (t : ByteTarget) : Statement (.pop t) := by
  cases t <;> exact bounds rfl rfl

theorem popu (t : ByteTarget) : Statement (.popu t) := target_length _ t

theorem popw (rr : RegPair) : Statement (.popw rr) := bounds rfl rfl

theorem popuw (rr : RegPair) : Statement (.popuw rr) := bounds rfl rfl

theorem pea (f : PeaForm) : Statement (.pea f) := by
  cases f <;> exact bounds rfl rfl

theorem peau (f : PeaForm) : Statement (.peau f) := by
  cases f <;> exact bounds rfl rfl

theorem link (rr : RegPair) (n : Byte) : Statement (.link rr n) := bounds rfl rfl

theorem linku (rr : RegPair) (n : Byte) : Statement (.linku rr n) := bounds rfl rfl

theorem unlink (rr : RegPair) : Statement (.unlink rr) := bounds rfl rfl

theorem unlinku (rr : RegPair) : Statement (.unlinku rr) := bounds rfl rfl

theorem mul (rrd : WPair) (rs : WReg) : Statement (.mul rrd rs) := bounds rfl rfl

theorem div (rrd : WPair) (rs : WReg) : Statement (.div rrd rs) := bounds rfl rfl

theorem divws (rrh rrl : WPair) (rrs : RegPair) : Statement (.divws rrh rrl rrs) := bounds rfl rfl

theorem band (src : BitSource) (bd : BitVec 3) (rd : WReg) (bs : BitVec 3) (rs : WReg)
    : Statement (.band src bd rd bs rs) := by
  cases src <;> exact bounds rfl rfl

theorem bor (src : BitSource) (bd : BitVec 3) (rd : WReg) (bs : BitVec 3) (rs : WReg)
    : Statement (.bor src bd rd bs rs) := by
  cases src <;> exact bounds rfl rfl

theorem bxor (src : BitSource) (bd : BitVec 3) (rd : WReg) (bs : BitVec 3) (rs : WReg)
    : Statement (.bxor src bd rd bs rs) := by
  cases src <;> exact bounds rfl rfl

theorem bld (src : BitSource) (bd : BitVec 3) (rd : WReg) (bs : BitVec 3) (rs : WReg)
    : Statement (.bld src bd rd bs rs) := by
  cases src <;> exact bounds rfl rfl

theorem btset (f : BtsetForm) : Statement (.btset f) := by
  cases f <;> exact bounds rfl rfl

theorem bset (b : BitVec 3) (rd : WReg) : Statement (.bset b rd) := bounds rfl rfl

theorem bres (b : BitVec 3) (rd : WReg) : Statement (.bres b rd) := bounds rfl rfl

theorem bcpl (b : BitVec 3) (rd : WReg) : Statement (.bcpl b rd) := bounds rfl rfl

theorem btjf (b : BitVec 3) (rd : WReg) (n : Byte) : Statement (.btjf b rd n) := bounds rfl rfl

theorem btjt (b : BitVec 3) (rd : WReg) (n : Byte) : Statement (.btjt b rd n) := bounds rfl rfl

theorem jpf (nn : Word) : Statement (.jpf nn) := bounds rfl rfl

theorem jplt (nn : Word) : Statement (.jplt nn) := bounds rfl rfl

theorem jple (nn : Word) : Statement (.jple nn) := bounds rfl rfl

theorem jpule (nn : Word) : Statement (.jpule nn) := bounds rfl rfl

theorem jpov (nn : Word) : Statement (.jpov nn) := bounds rfl rfl

theorem jpmi (nn : Word) : Statement (.jpmi nn) := bounds rfl rfl

theorem jpeq (nn : Word) : Statement (.jpeq nn) := bounds rfl rfl

theorem jpult (nn : Word) : Statement (.jpult nn) := bounds rfl rfl

theorem jpt (nn : Word) : Statement (.jpt nn) := bounds rfl rfl

theorem jpge (nn : Word) : Statement (.jpge nn) := bounds rfl rfl

theorem jpgt (nn : Word) : Statement (.jpgt nn) := bounds rfl rfl

theorem jpugt (nn : Word) : Statement (.jpugt nn) := bounds rfl rfl

theorem jpnov (nn : Word) : Statement (.jpnov nn) := bounds rfl rfl

theorem jppl (nn : Word) : Statement (.jppl nn) := bounds rfl rfl

theorem jpne (nn : Word) : Statement (.jpne nn) := bounds rfl rfl

theorem jpuge (nn : Word) : Statement (.jpuge nn) := bounds rfl rfl

theorem jrf (n : Byte) : Statement (.jrf n) := bounds rfl rfl

theorem jrlt (n : Byte) : Statement (.jrlt n) := bounds rfl rfl

theorem jrle (n : Byte) : Statement (.jrle n) := bounds rfl rfl

theorem jrule (n : Byte) : Statement (.jrule n) := bounds rfl rfl

theorem jrov (n : Byte) : Statement (.jrov n) := bounds rfl rfl

theorem jrmi (n : Byte) : Statement (.jrmi n) := bounds rfl rfl

theorem jreq (n : Byte) : Statement (.jreq n) := bounds rfl rfl

theorem jrult (n : Byte) : Statement (.jrult n) := bounds rfl rfl

theorem jrt (n : Byte) : Statement (.jrt n) := bounds rfl rfl

theorem jrge (n : Byte) : Statement (.jrge n) := bounds rfl rfl

theorem jrgt (n : Byte) : Statement (.jrgt n) := bounds rfl rfl

theorem jrugt (n : Byte) : Statement (.jrugt n) := bounds rfl rfl

theorem jrnov (n : Byte) : Statement (.jrnov n) := bounds rfl rfl

theorem jrpl (n : Byte) : Statement (.jrpl n) := bounds rfl rfl

theorem jrne (n : Byte) : Statement (.jrne n) := bounds rfl rfl

theorem jruge (n : Byte) : Statement (.jruge n) := bounds rfl rfl

theorem jp (rr : RegPair) : Statement (.jp rr) := bounds rfl rfl

theorem jps (f : FarForm) : Statement (.jps f) := by
  cases f <;> exact bounds rfl rfl

theorem call (f : CallForm) : Statement (.call f) := by
  cases f <;> exact bounds rfl rfl

theorem calls (f : FarForm) : Statement (.calls f) := by
  cases f <;> exact bounds rfl rfl

theorem ret : Statement .ret := bounds rfl rfl

theorem rets : Statement .rets := bounds rfl rfl

theorem iret : Statement .iret := bounds rfl rfl

theorem djnz (r : WReg) (n : Byte) : Statement (.djnz r n) := bounds rfl rfl

theorem dwjnz (rr : RegPair) (n : Byte) : Statement (.dwjnz rr n) := bounds rfl rfl

theorem cpjfi (rd : WReg) (rrs : WPair) (n : Byte) : Statement (.cpjfi rd rrs n) := bounds rfl rfl

theorem cpjti (rd : WReg) (rrs : WPair) (n : Byte) : Statement (.cpjti rd rrs n) := bounds rfl rfl

theorem srp (g : BitVec 5) : Statement (.srp g) := bounds rfl rfl

theorem srp0 (g : BitVec 5) : Statement (.srp0 g) := bounds rfl rfl

theorem srp1 (g : BitVec 5) : Statement (.srp1 g) := bounds rfl rfl

theorem spp (pg : BitVec 6) : Statement (.spp pg) := bounds rfl rfl

theorem xch (rd rs : Reg) : Statement (.xch rd rs) := bounds rfl rfl

theorem ext (rr : RegPair) : Statement (.ext rr) := bounds rfl rfl

theorem ei : Statement .ei := bounds rfl rfl

theorem di : Statement .di := bounds rfl rfl

theorem scf : Statement .scf := bounds rfl rfl

theorem rcf : Statement .rcf := bounds rfl rfl

theorem ccf : Statement .ccf := bounds rfl rfl

theorem spm : Statement .spm := bounds rfl rfl

theorem sdm : Statement .sdm := bounds rfl rfl

theorem nop : Statement .nop := bounds rfl rfl

theorem wfi : Statement .wfi := bounds rfl rfl

theorem halt : Statement .halt := bounds rfl rfl

theorem etrap : Statement .etrap := bounds rfl rfl

theorem eret : Statement .eret := bounds rfl rfl

end EncodedLength

end Sys2Proof.Laws
end

