-- ==== Sys2Proof/Tests/Slice0.lean ====
section
/-! SUPPORT. Tests on fixed values. The words and the expected values are those of spec/95_test_vectors.md; a name
or a comment gives its row. A theorem `test_witness_…` shows values that meet the hypotheses of the obligation it
is named after. -/

namespace Sys2Proof.Tests

-- Each test waits for the kernel; one after the other keeps the number of waiting threads small.
set_option Elab.async false

open Sys2Proof Sys2Proof.Machine

/-! ## Ill-formed instructions (30_encoding.md R96, R97) -/

theorem test_wf_byte_forms :
    [LdForm.k (.a7 0 5), .k (.a8 5 0), .k (.a9 0 5), .k (.a10 5 0), .k (.a11 0 5), .k (.a12 5 0), .k (.a13 0 5 2),
      .k (.a13 0 2 5), .k (.a14 5 2 0), .k (.a14 2 5 0), .k (.a15 0 0 5), .k (.a16 0 0 5), .k (.a17 0 5 0),
      .k (.a18 0 5 0), .k (.a21 0x41 2), .k (.a21 0x40 5), .k (.a22 5 0), .b5Load 0 5, .b5Store 5 0,
      .d7Load 0 5, .d7Store 5 0].all (fun f => !Instr.wf (.ld f)) = true := by decide +kernel

theorem test_wf_alu_bytes :
    [Instr.or (.k (.a7 0 5)), .and (.k (.a7 0 5)), .sbc (.k (.a7 0 5)), .adc (.k (.a7 0 5)), .add (.k (.a7 0 5)),
      .sub (.k (.a7 0 5)), .xor (.k (.a7 0 5)), .tcm (.k (.a7 0 5)), .cp (.k (.a7 0 5)),
      .tm (.k (.a7 0 5))].all (fun i => !Instr.wf i) = true := by decide +kernel

theorem test_wf_word_forms :
    [AluWordForm.w1 5 2, .w1 2 5, .w2 5 2, .w2 2 5, .w3 5 2, .w3 2 5, .w4 5 2, .w4 2 5, .w5 0x41 2, .w5 2 0x41,
      .w6 0x41 0, .k (.w7 0 0x41), .k (.w8 0x41 0), .k (.w9 0x41 2), .k (.w9 2 5), .k (.w10 0x41 2), .k (.w10 2 5),
      .k (.w11 5 2), .k (.w11 2 0x41), .k (.w12 0x41 2), .k (.w12 2 5), .k (.w13 5 2), .k (.w13 2 0x41),
      .k (.w14 5 2 4), .k (.w14 2 5 4), .k (.w14 2 4 5), .k (.w15 5 2 4), .k (.w15 2 5 4), .k (.w15 2 4 5),
      .k (.w16 0x41 0 2), .k (.w16 2 0 5), .k (.w17 0x41 0 2), .k (.w17 2 0 5), .k (.w18 0 5 2),
      .k (.w18 0 2 0x41), .k (.w19 0 5 2), .k (.w19 0 2 0x41), .k (.w20 5 0), .k (.w21 0 5), .k (.w22 5 2),
      .k (.w22 2 0x41), .k (.w23 5 0), .k (.w24 0 5 0), .k (.w25 0 5 0)].all
      (fun f => !Instr.wf (.addw f)) = true := by decide +kernel

theorem test_wf_alu_words :
    [Instr.orw (.w6 0x41 0), .andw (.w6 0x41 0), .sbcw (.w6 0x41 0), .adcw (.w6 0x41 0), .subw (.w6 0x41 0),
      .xorw (.w6 0x41 0), .tcmw (.w6 0x41 0), .cpw (.w6 0x41 0), .tmw (.w6 0x41 0)].all
      (fun i => !Instr.wf i) = true := by decide +kernel

theorem test_wf_loads :
    [Instr.ldw (.e3 5 2), .ldw (.e3 2 5), .ldw (.e3Load 5 2), .ldw (.e3Load 2 5), .ldw (.e3Store 5 2),
      .ldw (.e3Store 2 5), .ldw (.e3Move 5 2), .ldw (.e3Move 2 5), .ldw (.ef 0x41 2), .ldw (.ef 2 0x41),
      .ldw (.bf 0x41 0), .ldw (.deStore 0 0 5), .ldw (.deLoad 5 0 0), .ldw (.k (.w23 5 0)), .ldpp 5 2, .ldpp 2 5,
      .lddp 5 2, .lddp 2 5, .ldpd 5 2, .ldpd 2 5, .lddd 5 2, .lddd 2 5].all
      (fun i => !Instr.wf i) = true := by decide +kernel

theorem test_wf_others :
    [Instr.incw 0x41, .decw 0x41, .rlcw 0x41, .rrcw 0x41, .sraw 0x41, .pushw (.pair 0x41), .pushuw (.pair 0x41),
      .popw 0x41, .popuw 0x41, .pea (.short 0 0x41), .pea (.long 0 0x41), .peau (.short 0 0x41),
      .peau (.long 0 0x41), .link 0x41 0, .linku 0x41 0, .unlink 0x41, .unlinku 0x41, .mul 5 0, .div 5 0,
      .divws 5 2 2, .divws 2 5 2, .divws 2 2 0x41, .btset (.mem 0 5), .jp 0x41, .jps (.indirect 0 5),
      .call (.indirect 0x41), .calls (.indirect 0 5), .dwjnz 0x41 0, .cpjfi 0 5 0, .cpjti 0 5 0, .ext 0x41].all
      (fun i => !Instr.wf i) = true := by decide +kernel

/-! ## Decoding: a word for every constructor, written from its encoding in the spec -/

/-- The bytes decode to the instruction, with no byte left. -/
def reads (bs : List Byte) (i : Instr) : Bool := decide (decode bs = .ok (i, []))

theorem test_decode_alu_bytes :
    (reads [0x04, 0x40, 0xD8] (.or (.a3 0xD8 0x40)) && reads [0xC4, 0x18, 0x0F, 0xBC] (.and (.k (.a19 8 4028))) &&
    reads [0x7F, 0x25, 0x06, 0xD8] (.sbc (.k (.a15 0xD8 6 4))) && reads [0xB4, 0x35, 0xD8] (.adc (.k (.a9 0xD8 4))) &&
    reads [0x26, 0x49, 0x06, 0xFF] (.add (.k (.a17 6 8 0xFF))) && reads [0x72, 0x55, 0xD8] (.sub (.k (.a7 0xD8 4))) &&
    reads [0xC5, 0x68, 0x0F, 0xBC] (.xor (.k (.a20 4028 8))) && reads [0x73, 0x88, 0xD4] (.tcm (.k (.a21 0xD4 8))) &&
    reads [0xC2, 0x95, 0x20] (.cp (.k (.a11 32 4))) && reads [0xF3, 0xA8, 0x20] (.tm (.k (.a22 8 32)))) = true :=
  by decide +kernel

theorem test_decode_alu_words :
    (reads [0xD5, 0x04, 0x40] (.orw (.k (.w11 4 64))) && reads [0xBE, 0x19, 0x40] (.andw (.k (.w22 8 64))) &&
    reads [0xC3, 0x25, 0x40] (.sbcw (.k (.w12 64 4))) && reads [0x37, 0x41, 0x10, 0xAC] (.adcw (.w6 64 4268)) &&
    reads [0xA6, 0x48, 0x40] (.addw (.k (.w8 64 8))) && reads [0x5E, 0x57] (.subw (.w4 4 6)) &&
    reads [0x96, 0x40, 0x68] (.xorw (.k (.w7 8 64))) && reads [0x8E, 0x57] (.tcmw (.w4 4 6)) &&
    reads [0x97, 0x0A, 0xD6] (.cpw (.w5 0xD6 10)) && reads [0xAE, 0x02] (.tmw (.w1 0 2))) = true := by decide +kernel

theorem test_decode_loads :
    (reads [0xD7, 0x82] (.ld (.d7Store 2 8)) && reads [0xB2, 0x8A, 0x28] (.ld (.b2 40 10 8)) &&
    reads [0x60, 0x51, 0xF8] (.ld (.k (.a14 4 0 8))) && reads [0x60, 0x50, 0xF9] (.ld (.k (.a13 9 4 0))) &&
    reads [0x86, 0xF5, 0x02, 0x41] (.ldw (.k (.w18 2 4 64))) && reads [0xE3, 0x57] (.ldw (.e3Move 4 6)) &&
    reads [0xE2, 0xF7, 0x10, 0x00] (.ldw (.k (.w21 0x1000 6))) && reads [0xD6, 0x8C] (.ldpp 8 12) &&
    reads [0xD6, 0x9C] (.lddp 8 12) && reads [0xD6, 0x8D] (.ldpd 8 12) && reads [0xD6, 0x9D] (.lddd 8 12)) = true :=
  by decide +kernel

theorem test_decode_unaries :
    (reads [0x51, 0x20] (.inc (.indirect 32)) && reads [0x41, 0xD2] (.dec (.indirect 0xD2)) &&
    reads [0x91, 0x20] (.clr (.indirect 32)) && reads [0x81, 0x20] (.cpl (.indirect 32)) &&
    reads [0xF0, 0x20] (.swap (.direct 32)) && reads [0x70, 0x20] (.da (.direct 32)) &&
    reads [0xB1, 0xD2] (.rlc (.indirect 0xD2)) && reads [0xD1, 0x20] (.rrc (.indirect 32)) &&
    reads [0xA1, 0xD2] (.rol (.indirect 0xD2)) && reads [0xC0, 0x20] (.ror (.direct 32)) &&
    reads [0xE1, 0xD2] (.sra (.indirect 0xD2)) && reads [0xDF, 0x20] (.incw 32) && reads [0xCF, 0xD2] (.decw 0xD2) &&
    reads [0x8F, 0xD2] (.rlcw 0xD2) && reads [0x36, 0x20] (.rrcw 32) && reads [0x2F, 0xD2] (.sraw 0xD2)) = true :=
  by decide +kernel

theorem test_decode_stacks :
    (reads [0xF7, 0x20] (.push (.reg (.indirect 32))) && reads [0x8F, 0xF3, 0x14] (.pushu (.imm 20)) &&
    reads [0x74, 0x20] (.pushw (.pair 32)) && reads [0x8F, 0xC3, 0x12, 0x34] (.pushuw (.imm 0x1234)) &&
    reads [0x77, 0xD2] (.pop (.indirect 0xD2)) && reads [0x21, 0xD2] (.popu (.indirect 0xD2)) &&
    reads [0x75, 0xD2] (.popw 0xD2) && reads [0xB7, 0xD2] (.popuw 0xD2) &&
    reads [0x8F, 0x01, 0x21, 0x34, 0x12] (.pea (.long 0x1234 32)) &&
    reads [0x8F, 0x03, 0x20, 0x10] (.peau (.short 16 32)) && reads [0xD4, 0x05, 0x03] (.link 4 3) &&
    reads [0xB6, 0x05, 0x03] (.linku 4 3) && reads [0x75, 0x05] (.unlink 4) && reads [0xB7, 0x05] (.unlinku 4)) = true :=
  by decide +kernel

theorem test_decode_muldiv_and_bits :
    (reads [0x4F, 0x68] (.mul 6 8) && reads [0x5F, 0x86] (.div 8 6) && reads [0x56, 0x0A, 0x68] (.divws 6 8 10) &&
    reads [0x1F, 0xB4, 0x58] (.band .plain 5 4 2 8) && reads [0x0F, 0xB4, 0x58] (.bor .complemented 5 4 2 8) &&
    reads [0x6F, 0xB4, 0x48] (.bxor .plain 5 4 2 8) && reads [0xF2, 0xDC, 0x67] (.bld .plain 3 7 6 12) &&
    reads [0xF2, 0xA4] (.btset (.reg 5 4)) && reads [0xF6, 0x68] (.btset (.mem 3 8)) &&
    reads [0x0F, 0x67] (.bset 3 7) && reads [0x1F, 0xA4] (.bres 5 4) && reads [0x6F, 0xA4] (.bcpl 5 4) &&
    reads [0xAF, 0x5A, 0xD8] (.btjf 2 10 0xD8) && reads [0xAF, 0x4A, 0x28] (.btjt 2 10 0x28)) = true :=
  by decide +kernel

theorem test_decode_conditional_jumps :
    (reads [0x0D, 0x04, 0x00] (.jpf 1024) && reads [0x1D, 0x04, 0x00] (.jplt 1024) &&
    reads [0x2D, 0x04, 0x00] (.jple 1024) && reads [0x3D, 0x04, 0x00] (.jpule 1024) &&
    reads [0x4D, 0x04, 0x00] (.jpov 1024) && reads [0x5D, 0x04, 0x00] (.jpmi 1024) &&
    reads [0x6D, 0x04, 0x00] (.jpeq 1024) && reads [0x7D, 0x04, 0x00] (.jpult 1024) &&
    reads [0x8D, 0x04, 0x00] (.jpt 1024) && reads [0x9D, 0x04, 0x00] (.jpge 1024) &&
    reads [0xAD, 0x04, 0x00] (.jpgt 1024) && reads [0xBD, 0x04, 0x00] (.jpugt 1024) &&
    reads [0xCD, 0x04, 0x00] (.jpnov 1024) && reads [0xDD, 0x04, 0x00] (.jppl 1024) &&
    reads [0xED, 0x04, 0x00] (.jpne 1024) && reads [0xFD, 0x04, 0x00] (.jpuge 1024)) = true := by decide +kernel

theorem test_decode_relative_jumps :
    (reads [0x0B, 0x18] (.jrf 24) && reads [0x1B, 0x18] (.jrlt 24) && reads [0x2B, 0x18] (.jrle 24) &&
    reads [0x3B, 0x18] (.jrule 24) && reads [0x4B, 0x18] (.jrov 24) && reads [0x5B, 0x18] (.jrmi 24) &&
    reads [0x6B, 0x18] (.jreq 24) && reads [0x7B, 0x18] (.jrult 24) && reads [0x8B, 0x18] (.jrt 24) &&
    reads [0x9B, 0x18] (.jrge 24) && reads [0xAB, 0x18] (.jrgt 24) && reads [0xBB, 0x18] (.jrugt 24) &&
    reads [0xCB, 0x18] (.jrnov 24) && reads [0xDB, 0x18] (.jrpl 24) && reads [0xEB, 0x18] (.jrne 24) &&
    reads [0xFB, 0x18] (.jruge 24)) = true := by decide +kernel

theorem test_decode_control :
    (reads [0xD4, 0x20] (.jp 32) && reads [0x3F, 0xD2, 0x35, 0x21] (.jps (.direct 0x12 0x3521)) &&
    reads [0x73, 0xC7, 0x40] (.jps (.indirect 64 6)) && reads [0xD2, 0x35, 0x21] (.call (.direct 0x3521)) &&
    reads [0x74, 0xD7] (.call (.indirect 0xD6)) && reads [0x3F, 0x52, 0x35, 0x21] (.calls (.direct 0x12 0x3521)) &&
    reads [0x73, 0x47, 0x40] (.calls (.indirect 64 6)) && reads [0x46] .ret && reads [0xF6, 0x01] .rets &&
    reads [0xD3] .iret && reads [0x6A, 0xFE] (.djnz 6 0xFE) && reads [0xC6, 0x40, 0xFD] (.dwjnz 64 0xFD) &&
    reads [0x9F, 0xE2, 0x64] (.cpjfi 2 14 100) && reads [0x9F, 0xF2, 0x64] (.cpjti 2 14 100)) = true :=
  by decide +kernel

theorem test_decode_misc :
    (reads [0xC7, 0x18] (.srp 3) && reads [0xC7, 0x1C] (.srp0 3) && reads [0xC7, 0x15] (.srp1 2) &&
    reads [0xC7, 0x16] (.spp 5) && reads [0x16, 0xD4, 0xA2] (.xch 0xA2 0xD4) && reads [0xC6, 0x0B] (.ext 10) &&
    reads [0x00] .ei && reads [0x10] .di && reads [0x01] .scf && reads [0x11] .rcf && reads [0x61] .ccf &&
    reads [0xEE] .spm && reads [0xFE] .sdm && reads [0xFF] .nop &&
    reads [0xEF, 0x01] .wfi && reads [0xBF, 0x01] .halt &&
    reads [0xCE] .etrap && reads [0xEF, 0x31] .eret) = true := by decide +kernel

/-- Rows A53, B49, K33, M8, M17, M20, T23, Q20. -/
theorem test_decode_reserved :
    [[0xE6, 0x40, 0x70], [0xDF, 0x41], [0x8F, 0x05], [0x4F, 0x78], [0x5F, 0x96], [0x56, 0x0B, 0x68],
      [0x56, 0x0A, 0x78], [0x56, 0x0A, 0x69], [0xF6, 0x03], [0xF6, 0x11], [0xC7, 0x01], [0xC7, 0x03], [0xC7, 0x07],
      [0xEF, 0x03], [0xBF, 0x03]].all (fun bs => (decode bs).toOption.isNone) = true := by decide +kernel

/-! ## One step each -/

/-- The start of Part 2 of the test vectors: one window with RP0 = 2, so that `rN` is R(16 + N). -/
def start : State := { State.reset with rp0 := 2, pc := 0x0100 }

/-- The start with memory bytes (in rising order) and registers placed. -/
def given (rs : List (Byte × Byte)) (ms : List Host.Cell := []) : State :=
  rs.foldl (fun s r => s.setReg r.1 r.2) { start with mem := ms }

/-- The next state of an outcome, if there is one. -/
def next? (o : Out) : Option State :=
  match o with
  | .next t => some t
  | _ => none

/-- The refusal of an outcome, if there is one. -/
def stop? (o : Out) : Option Refusal :=
  match o with
  | .refused r => some r
  | _ => none

/-- The state after an instruction, if there is one. -/
def after (i : Instr) (s : State) : Option State := next? (exec i s)

/-- The byte at a physical memory address. -/
def mem (t : State) (a : Nat) : Byte := Cells.read t.mem a

/-- A1. -/
theorem test_add :
    (after (.add (.a1 0 1)) (given [(16, 0xFF), (17, 1)])).map
      (fun t => (t.reg 16, t.flagr)) = some (0x00, 0xC4) := by decide +kernel

/-- A52: the pointer is incremented as the store left it. -/
theorem test_add_overlapping_pointer :
    (after (.add (.k (.a9 0xD4 4))) (given [(20, 0x10)] [(0x1000, 1)])).map
      (fun t => t.pair 20) = some (0x1101) := by decide +kernel

/-- A6. -/
theorem test_adc :
    (after (.adc (.a1 0 1)) { (given [(16, 0xFF), (17, 0xFF)]) with flagr := 0x80 }).map
      (fun t => (t.reg 16, t.flagr)) = some (0xFF, 0xA4) := by decide +kernel

/-- A9. -/
theorem test_sub :
    (after (.sub (.a1 0 1)) (given [(17, 1)])).map
      (fun t => (t.reg 16, t.flagr)) = some (0xFF, 0xAC) := by decide +kernel

/-- A13. -/
theorem test_sub_overflow :
    (after (.sub (.a1 0 1)) (given [(16, 0x7F), (17, 0xFF)])).map
      (fun t => (t.reg 16, t.flagr)) = some (0x80, 0xB8) := by decide +kernel

/-- A14. -/
theorem test_sbc :
    (after (.sbc (.a1 0 1)) { (given [(17, 0xFF)]) with flagr := 0x80 }).map
      (fun t => (t.reg 16, t.flagr)) = some (0x00, 0xCC) := by decide +kernel

/-- A20. -/
theorem test_and :
    (after (.and (.a1 0 1)) { (given [(16, 0xF0), (17, 0x0F)]) with flagr := 0x8C }).map
      (fun t => (t.reg 16, t.flagr)) = some (0x00, 0xCC) := by decide +kernel

/-- A21. -/
theorem test_or :
    (after (.or (.a1 0 1)) { (given [(16, 0x80), (17, 1)]) with flagr := 0x10 }).map
      (fun t => (t.reg 16, t.flagr)) = some (0x81, 0x20) := by decide +kernel

/-- A51: the flags are written over the stored result. -/
theorem test_or_flagr : (after (.or (.a4 231 0xF0)) start).map (fun t => t.flagr) = some (0xA0) := by decide +kernel

/-- A22. -/
theorem test_xor :
    (after (.xor (.a1 0 0)) { (given [(16, 0x5A)]) with flagr := 0x80 }).map
      (fun t => (t.reg 16, t.flagr)) = some (0x00, 0xC0) := by decide +kernel

/-- A26. -/
theorem test_tcm :
    (after (.tcm (.a1 0 1)) (given [(17, 0x81)])).map
      (fun t => (t.reg 16, t.flagr)) = some (0x00, 0x20) := by decide +kernel

/-- A23. -/
theorem test_tm :
    (after (.tm (.a1 0 1)) (given [(16, 0x81), (17, 0x80)])).map
      (fun t => (t.reg 16, t.flagr)) = some (0x81, 0x20) := by decide +kernel

/-- A18: D and H stay. -/
theorem test_cp :
    (after (.cp (.a1 0 1)) { (given [(16, 0x7F), (17, 0xFF)]) with flagr := 0x0C }).map
      (fun t => (t.reg 16, t.flagr)) = some (0x7F, 0xBC) := by decide +kernel

/-- A32. -/
theorem test_cp_postincrement :
    (after (.cp (.k (.a10 4 64))) (given [(20, 0xFF), (21, 0xFF), (64, 9)] [(0xFFFF, 9)])).map
      (fun t => (t.pair 20, mem t 0xFFFF, t.flagr)) = some (0, 9, 0x40) := by decide +kernel

/-- A49: the word straddles the wrap. -/
theorem test_addw :
    (after (.addw (.w4 4 6)) (given [(20, 0xFF), (21, 0xFF), (22, 0x20)] [(0x0000, 0xFF), (0x2001, 1)])).map
      (fun t => (mem t 0xFFFF, mem t 0x0000)) = some (0x01, 0x00) := by decide +kernel

/-- A34, flags C Z S V. -/
theorem test_addw_flags : (add16 0x7FFF 1 false none none).flags =
    { c := some false, z := some false, s := some true, v := some true } := by decide +kernel

/-- A36. -/
theorem test_adcw :
    (after (.adcw (.w1 0 2)) { (given [(17, 0xFF), (19, 1)]) with flagr := 0x80 }).map
      (fun t => t.pair 16) = some (0x0101) := by decide +kernel

/-- A50: the pair is decremented first. -/
theorem test_subw :
    (after (.subw (.k (.w12 64 4))) (given [(21, 1), (65, 3)] [(0x0000, 1)])).map
      (fun t => (t.pair 20, t.pair 64)) = some (0xFFFF, 0x0002) := by decide +kernel

/-- A38, flags C Z S V. -/
theorem test_subw_flags : (sub16 0x8000 1 false none none).flags =
    { c := some false, z := some false, s := some false, v := some true } := by decide +kernel

/-- A39. -/
theorem test_sbcw :
    (after (.sbcw (.w1 0 2)) { (given [(16, 1), (19, 0xFF)]) with flagr := 0x80 }).map
      (fun t => t.pair 16) = some (0x0000) := by decide +kernel

/-- A40: D and H stay. -/
theorem test_cpw :
    (after (.cpw (.w1 0 2)) { (given [(16, 0x80), (19, 1)]) with flagr := 0x08 }).map
      (fun t => (t.pair 16, t.flagr)) = some (0x8000, 0x18) := by decide +kernel

/-- A42. -/
theorem test_andw :
    (after (.andw (.w1 0 2)) { (given [(16, 0xF0), (17, 0xF0), (18, 0x0F), (19, 0x0F)]) with flagr := 0x8C }).map
      (fun t => (t.pair 16, t.flagr)) = some (0x0000, 0xCC) := by decide +kernel

/-- A43. -/
theorem test_orw :
    (after (.orw (.w1 0 2)) (given [(16, 0x80), (19, 1)])).map
      (fun t => (t.pair 16, t.flagr)) = some (0x8001, 0x20) := by decide +kernel

/-- E180. -/
theorem test_xorw :
    (after (.xorw (.k (.w12 64 4))) (given [(20, 4), (21, 0xA0), (64, 0xAA), (65, 0xAA)] [(1182, 0xCC),
      (1183, 0xCC)])).map
      (fun t => (t.pair 64, t.pair 20)) = some (0x6666, 1182) := by decide +kernel

/-- A45. -/
theorem test_tmw :
    (after (.tmw (.w1 0 2)) (given [(16, 0x80), (17, 1), (18, 0x80)])).map
      (fun t => (t.pair 16, t.flagr)) = some (0x8001, 0x20) := by decide +kernel

/-- A46. -/
theorem test_tcmw :
    (after (.tcmw (.w1 0 2)) (given [(16, 0x80), (17, 1), (18, 0x80), (19, 1)])).map
      (fun t => (t.pair 16, t.flagr)) = some (0x8001, 0x40) := by decide +kernel

/-- L8. -/
theorem test_ld :
    (after (.ld (.d7Load 4 6)) (given [(20, 0x40), (22, 0xFF), (23, 0xFF)] [(0xFFFF, 0x99)])).map
      (fun t => (t.reg 64, t.reg 20, t.pair 22)) = some (0x99, 0x41, 0) := by decide +kernel

/-- L10. -/
theorem test_ld_negative_offset :
    (after (.ld (.k (.a15 55 0xFE 6))) (given [(23, 1)] [(0xFFFF, 0x12)])).map
      (fun t => t.reg 55) = some (0x12) := by decide +kernel

/-- L13. -/
theorem test_ldw :
    (after (.ldw (.e3Store 4 6)) (given [(20, 0xFF), (21, 0xFF), (22, 0xBE), (23, 0xEF)])).map
      (fun t => (mem t 0xFFFF, mem t 0)) = some (0xBE, 0xEF) := by decide +kernel

/-- L15: an odd pair address stops the model. -/
theorem test_ldw_odd_pair : 
    stop? (exec (.ldw (.k (.w7 8 64))) (given [(24, 201)])) = some .unsupportedU2 := by decide +kernel

/-- An instance with separate spaces: data addresses 0x1000 and 0x2000 lie at 0x31000 and 0x32000 (L19). -/
def apart : State :=
  { given [(24, 0x10), (28, 0x20)] [(0x2000, 0xAA), (0x32000, 0x55)] with
    dataMap := [(0x1000, 0x31000), (0x2000, 0x32000)] }

/-- L19. -/
theorem test_ldpp :
    (after (.ldpp 8 12) apart).map
      (fun t => (mem t 0x1000, t.pair 24, t.pair 28)) = some (0xAA, 0x1001, 0x2001) := by decide +kernel

/-- L19. -/
theorem test_lddp :
    (after (.lddp 8 12) apart).map
      (fun t => (mem t 0x31000, t.pair 24, t.pair 28)) = some (0xAA, 0x1001, 0x2001) := by decide +kernel

/-- L19. -/
theorem test_ldpd :
    (after (.ldpd 8 12) apart).map
      (fun t => (mem t 0x1000, t.pair 24, t.pair 28)) = some (0x55, 0x1001, 0x2001) := by decide +kernel

/-- E82. -/
theorem test_lddd :
    (after (.lddd 8 12) apart).map
      (fun t => (mem t 0x31000, t.pair 24, t.pair 28)) = some (0x55, 0x1001, 0x2001) := by decide +kernel

/-- B1. -/
theorem test_inc :
    (after (.inc (.direct 64)) { (given [(64, 0x7F)]) with flagr := 0x80 }).map
      (fun t => (t.reg 64, t.flagr)) = some (0x80, 0xB0) := by decide +kernel

/-- B4. -/
theorem test_dec :
    (after (.dec (.direct 64)) (given [(64, 0x80)])).map
      (fun t => (t.reg 64, t.flagr)) = some (0x7F, 0x10) := by decide +kernel

/-- B14. -/
theorem test_clr :
    (after (.clr (.indirect 0xD0)) (given [(16, 200), (200, 0x77)])).map
      (fun t => (t.reg 200, t.reg 16)) = some (0, 200) := by decide +kernel

/-- B16. -/
theorem test_cpl :
    (after (.cpl (.direct 64)) (given [(64, 0x55)])).map
      (fun t => (t.reg 64, t.flagr)) = some (0xAA, 0x20) := by decide +kernel

/-- E149. -/
theorem test_swap :
    (after (.swap (.direct 32)) (given [(32, 0xE7)])).map
      (fun t => t.reg 32) = some (0x7E) := by decide +kernel

/-- B20 and B28: the value and C. -/
theorem test_da :
    (da8 0x9A false false false none).value = 0 ∧
    (da8 0x9A false false false none).flags.c = some true ∧
    (da8 0x6F true true true none).value = 0x09 ∧
    (da8 0x6F true true true none).flags.c = some true := by decide +kernel

/-- B31. -/
theorem test_rlc :
    (after (.rlc (.direct 64)) { (given [(64, 0x40)]) with flagr := 0x80 }).map
      (fun t => (t.reg 64, t.flagr)) = some (0x81, 0x30) := by decide +kernel

/-- B33. -/
theorem test_rrc :
    (after (.rrc (.direct 64)) { (given []) with flagr := 0x80 }).map
      (fun t => (t.reg 64, t.flagr)) = some (0x80, 0x30) := by decide +kernel

/-- B34. -/
theorem test_rol :
    (after (.rol (.direct 64)) (given [(64, 0x80)])).map
      (fun t => (t.reg 64, t.flagr)) = some (0x01, 0x90) := by decide +kernel

/-- B36. -/
theorem test_ror :
    (after (.ror (.direct 64)) (given [(64, 1)])).map
      (fun t => (t.reg 64, t.flagr)) = some (0x80, 0xB0) := by decide +kernel

/-- B41. -/
theorem test_sra :
    (after (.sra (.direct 64)) (given [(64, 0x81)])).map
      (fun t => (t.reg 64, t.flagr)) = some (0xC0, 0xA0) := by decide +kernel

/-- B9. -/
theorem test_incw :
    (after (.incw 64) (given [(64, 0x7F), (65, 0xFF)])).map
      (fun t => (t.pair 64, t.flagr)) = some (0x8000, 0x30) := by decide +kernel

/-- B12. -/
theorem test_decw :
    (after (.decw 64) (given [(64, 0x80)])).map
      (fun t => (t.pair 64, t.flagr)) = some (0x7FFF, 0x10) := by decide +kernel

/-- B38. -/
theorem test_rlcw :
    (after (.rlcw 64) { (given [(64, 0x80)]) with flagr := 0x80 }).map
      (fun t => t.pair 64) = some (0x0001) := by decide +kernel

/-- B40. -/
theorem test_rrcw :
    (after (.rrcw 64) { (given []) with flagr := 0x80 }).map
      (fun t => t.pair 64) = some (0x8000) := by decide +kernel

/-- B44. -/
theorem test_sraw :
    (after (.sraw 64) (given [(64, 0x80), (65, 1)])).map
      (fun t => (t.pair 64, t.flagr)) = some (0xC000, 0xA0) := by decide +kernel

/-- K2. -/
theorem test_push :
    (after (.push (.reg (.indirect 64))) { (given [(64, 100), (100, 0x3C)]) with ssp := 0x2000 }).map
      (fun t => (t.ssp, mem t 0x1FFF)) = some (0x1FFF, 0x3C) := by decide +kernel

/-- K18: no borrow into the high byte. -/
theorem test_push_regfile :
    (after (.push (.imm 1)) { start with ssp := 0x0700, sspInRegfile := true }).map
      (fun t => (t.ssp, t.reg 255)) = some (0x07FF, 1) := by decide +kernel

/-- K9. -/
theorem test_pushu :
    (after (.pushu (.reg (.direct 64))) { given [(64, 9)] with usp := 0x3000, ssp := 0x2000 }).map
      (fun t => (t.usp, mem t 0x2FFF, t.ssp)) = some (0x2FFF, 9, 0x2000) := by decide +kernel

/-- K5. -/
theorem test_pushw :
    (after (.pushw (.imm 0x1234)) { start with ssp := 1 }).map
      (fun t => (t.ssp, mem t 0xFFFF, mem t 0)) = some (0xFFFF, 0x12, 0x34) := by decide +kernel

/-- K31: the source is read first. -/
theorem test_pushw_pointer :
    (after (.pushw (.pair 238)) { start with ssp := 0x2000 }).map
      (fun t => (t.ssp, mem t 0x1FFE, mem t 0x1FFF)) = some (0x1FFE, 0x20, 0) := by decide +kernel

/-- K12. -/
theorem test_pushuw :
    (after (.pushuw (.pair 64)) { (given [(64, 0xBE), (65, 0xEF)]) with usp := 0x3000 }).map
      (fun t => (t.usp, mem t 0x2FFE, mem t 0x2FFF)) = some (0x2FFE, 0xBE, 0xEF) := by decide +kernel

/-- K6. -/
theorem test_pop :
    (after (.pop (.direct 231)) { (given [] [(0x1FFF, 0x81)]) with ssp := 0x1FFF }).map
      (fun t => (t.flagr, t.ssp)) = some (0x81, 0x2000) := by decide +kernel

/-- K11. -/
theorem test_popu :
    (after (.popu (.indirect 65)) { (given [(65, 100)] [(0x2FFF, 8)]) with usp := 0x2FFF }).map
      (fun t => (t.reg 100, t.usp)) = some (8, 0x3000) := by decide +kernel

/-- K32: the destination is written after the pointer. -/
theorem test_popw :
    (after (.popw 238) { (given [] [(0x1FFE, 0x30)]) with ssp := 0x1FFE }).map
      (fun t => t.ssp) = some (0x3000) := by decide +kernel

/-- K12. -/
theorem test_popuw :
    (after (.popuw 66) { (given [] [(0x2FFE, 0xBE), (0x2FFF, 0xEF)]) with usp := 0x2FFE }).map
      (fun t => (t.pair 66, t.usp)) = some (0xBEEF, 0x3000) := by decide +kernel

/-- K20: the short offset is signed. -/
theorem test_pea :
    (after (.pea (.short 0xFE 32)) { (given [(32, 0x10)]) with ssp := 0x2000 }).map
      (fun t => (t.ssp, mem t 0x1FFE, mem t 0x1FFF)) = some (0x1FFE, 0x0F, 0xFE) := by decide +kernel

/-- K23. -/
theorem test_peau :
    (after (.peau (.short 16 32)) { (given [(32, 4)]) with usp := 0x3000 }).map
      (fun t => (t.usp, mem t 0x2FFE, mem t 0x2FFF)) = some (0x2FFE, 0x04, 0x10) := by decide +kernel

/-- K27. -/
theorem test_link :
    (after (.link 4 255) { start with ssp := 0x2000 }).map
      (fun t => (t.pair 4, t.ssp)) = some (0x1FFE, 0x1EFF) := by decide +kernel

/-- K29: only the low bytes take part. -/
theorem test_link_regfile :
    (after (.link 4 3) { given [(4, 0x12), (5, 0x34)] with ssp := 0x0080, sspInRegfile := true }).map
      (fun t => (t.reg 127, t.pair 4)) = some (0x34, 0x127F) := by decide +kernel

/-- K28. -/
theorem test_linku :
    (after (.linku 4 3) { (given [(4, 0x12), (5, 0x34)]) with usp := 0x3000 }).map
      (fun t => (t.pair 4, t.usp, mem t 0x2FFE)) = some (0x2FFE, 0x2FFB, 0x12) := by decide +kernel

/-- K25. -/
theorem test_unlink :
    (after (.unlink 4) { (given [(4, 0x1F), (5, 0xFE)] [(0x1FFE, 0x12), (0x1FFF, 0x34)]) with ssp := 0x1000 }).map
      (fun t => (t.pair 4, t.ssp)) = some (0x1234, 0x2000) := by decide +kernel

/-- K28. -/
theorem test_unlinku :
    (after (.unlinku 4) { (given [(4, 0x2F), (5, 0xFE)] [(0x2FFE, 0x12), (0x2FFF, 0x34)]) with usp := 0x2FFB }).map
      (fun t => (t.pair 4, t.usp)) = some (0x1234, 0x3000) := by decide +kernel

/-- M2. -/
theorem test_mul :
    (after (.mul 6 8) (given [(23, 0xFF), (24, 0xFF)])).map
      (fun t => t.pair 22) = some (65025) := by decide +kernel

/-- M3: V says that the low byte is 0. -/
theorem test_mul_flags : (mul8 0x10 0x10 none).flags =
    { c := some false, z := some false, s := some false, v := some true, d := some false } := by decide +kernel

/-- M15: the divisor register receives the quotient. -/
theorem test_div :
    (after (.div 8 9) (given [(24, 1), (25, 5)])).map
      (fun t => (t.reg 24, t.reg 25)) = some (1, 52) := by decide +kernel

/-- X2: the vector comes from segment 0. -/
theorem test_div_by_zero :
    (after (.div 8 6) { given [(24, 0x12), (25, 0x34)] [(2, 0x40), (0x50002, 0x99)] with
        pc := 0x1A49, csr := 5, ssp := 0x3002, flagr := 0x55 }).map
      (fun t => ((t.pc, t.csr, t.ssp), t.pair 24, t.flagr, mem t 0x3000, mem t 0x3001)) =
      some ((0x4000, 5, 0x3000), 0x1234, 0x55, 0x1A, 0x49) :=
  by decide +kernel

/-- M18. -/
theorem test_divws :
    (after (.divws 6 8 10) { (given [(11, 3)]) with flagr := 0xFC }).map
      (fun t => t.flagr) = some 0xC8 := by decide +kernel

/-- T1. -/
theorem test_band :
    (after (.band .plain 5 4 2 8) (given [(20, 0xFF), (24, 0xFB)])).map
      (fun t => (t.reg 20, t.reg 24, t.flagr)) = some (0xDF, 0xFB, 0) := by decide +kernel

/-- T4. -/
theorem test_bor :
    (after (.bor .complemented 5 4 2 8) (given [])).map
      (fun t => t.reg 20) = some (0x20) := by decide +kernel

/-- T10. -/
theorem test_bxor :
    (after (.bxor .plain 5 4 5 4) (given [(20, 0xFF)])).map
      (fun t => t.reg 20) = some (0xDF) := by decide +kernel

/-- T8. -/
theorem test_bld :
    (after (.bld .complemented 5 4 2 8) (given [(20, 0xFF), (24, 4)])).map
      (fun t => t.reg 20) = some (0xDF) := by decide +kernel

/-- T14. -/
theorem test_btset :
    (after (.btset (.reg 7 4)) { (given [(20, 0x80)]) with flagr := 0x80 }).map
      (fun t => (t.reg 20, t.flagr)) = some (0x80, 0xA0) := by decide +kernel

/-- T17. -/
theorem test_btset_memory :
    (after (.btset (.mem 0 2)) (given [(18, 0x10)] [(0x1000, 0xFE)])).map
      (fun t => (mem t 0x1000, t.flagr)) = some (0xFF, 0x40) := by decide +kernel

/-- T11. -/
theorem test_bset :
    (after (.bset 7 7) (given [])).map
      (fun t => (t.reg 23, t.flagr)) = some (0x80, 0) := by decide +kernel

/-- T12. -/
theorem test_bres : (after (.bres 0 7) (given [(23, 0xFF)])).map (fun t => t.reg 23) = some (0xFE) := by decide +kernel

/-- T13. -/
theorem test_bcpl : (after (.bcpl 0 4) (given [])).map (fun t => t.reg 20) = some (1) := by decide +kernel

/-- T22, the pc past the instruction. -/
theorem test_btjf :
    (after (.btjf 2 10 0x80) { start with pc := 0x0013 }).map
      (fun t => t.pc) = some (0xFF93) := by decide +kernel

/-- T20. -/
theorem test_btjt :
    (after (.btjt 2 10 40) { given [(26, 4)] with pc := 0x0103 }).map
      (fun t => t.pc) = some (0x012B) := by decide +kernel

/-- J6 for JPcc: FLAGR is 0x90. -/
theorem test_jpcc :
    [Instr.jpf 16, .jplt 16, .jple 16, .jpule 16, .jpov 16, .jpmi 16, .jpeq 16, .jpult 16, .jpt 16, .jpge 16,
      .jpgt 16, .jpugt 16, .jpnov 16, .jppl 16, .jpne 16, .jpuge 16].map
      (fun i => (after i { start with flagr := 0x90 }).map (fun t => t.pc == 16)) =
    [false, true, true, true, true, false, false, true, true, false, false, false, false, true, true, false].map
      some := by decide +kernel

/-- J7: FLAGR is 0x60, the pc past the instruction is 0x0102. -/
theorem test_jrcc :
    [Instr.jrf 16, .jrlt 16, .jrle 16, .jrule 16, .jrov 16, .jrmi 16, .jreq 16, .jrult 16, .jrt 16, .jrge 16,
      .jrgt 16, .jrugt 16, .jrnov 16, .jrpl 16, .jrne 16, .jruge 16].map
      (fun i => (after i { start with flagr := 0x60, pc := 0x0102 }).map (fun t => t.pc == 0x0112)) =
    [false, true, true, true, false, true, true, false, true, false, false, false, true, false, false, true].map
      some := by decide +kernel

/-- J1. -/
theorem test_jrt_backward :
    (after (.jrt 0xFE) { start with pc := 0x0102 }).map
      (fun t => t.pc) = some (0x0100) := by decide +kernel

/-- J10. -/
theorem test_jp : (after (.jp 0xD6) (given [(23, 1)])).map (fun t => t.pc) = some (1) := by decide +kernel

/-- J12. -/
theorem test_jps :
    (after (.jps (.indirect 64 6)) (given [(64, 0xC5), (22, 0x80)])).map
      (fun t => (t.csr, t.pc)) = some (5, 0x8000) := by decide +kernel

/-- S19. -/
theorem test_call :
    (after (.call (.direct 0x3521)) { start with pc := 0x1A4A, ssp := 0x3002 }).map
      (fun t => (t.ssp, t.pc, mem t 0x3000, mem t 0x3001)) = some (0x3000, 0x3521, 0x1A, 0x4A) := by decide +kernel

/-- J16. -/
theorem test_calls :
    (after (.calls (.direct 0x12 0x3521)) { start with pc := 0x1A4B, csr := 6, ssp := 0x3003 }).map
      (fun t => ((t.ssp, t.csr, t.pc), mem t 0x3000, mem t 0x3001, mem t 0x3002)) =
      some ((0x3000, 0x12, 0x3521), 6, 0x1A, 0x4B) :=
  by decide +kernel

/-- E112. -/
theorem test_ret :
    (after (.ret) { (given [] [(0x2000, 0x18), (0x2001, 0x85)]) with ssp := 0x2000 }).map
      (fun t => (t.ssp, t.pc)) = some (0x2002, 0x1885) := by decide +kernel

/-- E113. -/
theorem test_rets :
    (after (.rets) { (given [] [(0x2000, 0x18), (0x2001, 0x85), (0x2002, 0xA1)]) with ssp := 0x2000 }).map
      (fun t => (t.csr, t.pc, t.ssp)) = some (0x18, 0x85A1, 0x2003) := by decide +kernel

/-- J27. -/
theorem test_iret :
    (after (.iret) { given [] [(0x2000, 0x81), (0x2001, 0x45), (0x2002, 0x18), (0x2003, 0x85)] with
      ssp := 0x2000, encsr := true, cicr := 0x0F }).map
      (fun t => ((t.flagr, t.csr), t.pc, t.ssp, t.cicr)) = some ((0x81, 5), 0x1885, 0x2004, 0x1F) := by decide +kernel

/-- J26. -/
theorem test_iret_short_frame :
    (after (.iret) { given [] [(0x2000, 0x81), (0x2001, 0x18), (0x2002, 0x85)] with ssp := 0x2000, csr := 7 }).map
      (fun t => ((t.flagr, t.csr), t.pc, t.ssp, t.cicr)) = some ((0x81, 7), 0x1885, 0x2003, 0x10) := by decide +kernel

/-- J20. -/
theorem test_djnz :
    (after (.djnz 6 0xFE) { start with pc := 0x0102 }).map
      (fun t => (t.reg 22, t.pc)) = some (255, 0x0100) := by decide +kernel

/-- J22. -/
theorem test_dwjnz :
    (after (.dwjnz 64 0xFD) { given [(65, 1)] with pc := 0x0103 }).map
      (fun t => (t.pair 64, t.pc)) = some (0, 0x0103) := by decide +kernel

/-- J23. -/
theorem test_cpjfi :
    (after (.cpjfi 2 14 100) { given [(18, 0xCC), (30, 0x0B), (31, 0xB8)] [(3000, 0xCC)] with pc := 340 }).map
      (fun t => (t.pair 30, t.pc)) = some (3001, 340) := by decide +kernel

/-- J25. -/
theorem test_cpjti :
    (after (.cpjti 2 14 100) { given [(18, 0xCC), (30, 0xFF), (31, 0xFF)] with pc := 340 }).map
      (fun t => (t.pair 30, t.pc)) = some (0, 340) := by decide +kernel

/-- Q5: 3 counts as 2. -/
theorem test_srp :
    (after (.srp 3) { start with twin := true }).map
      (fun t => (t.rp0, t.twin, t.working 3)) = some (3, false, 19) := by decide +kernel

/-- E137. -/
theorem test_srp0 :
    (after (.srp0 3) start).map
      (fun t => (t.rp0, t.twin, t.working 3)) = some (3, true, 27) := by decide +kernel

/-- E138. -/
theorem test_srp1 :
    (after (.srp1 2) start).map
      (fun t => (t.rp1, t.twin, t.working 10)) = some (2, true, 18) := by decide +kernel

/-- E133. -/
theorem test_spp : (after (.spp 5) start).map (fun t => t.reg 234) = some (0x14) := by decide +kernel

/-- Q11. -/
theorem test_xch :
    (after (.xch 231 64) (given [(64, 0xFD)])).map
      (fun t => (t.flagr, t.reg 64)) = some (0xFD, 0) := by decide +kernel

/-- Q12. -/
theorem test_ext :
    (after (.ext 0xD4) (given [(20, 0x12), (21, 0x80)])).map
      (fun t => (t.reg 20, t.reg 21)) = some (0xFF, 0x80) := by decide +kernel

/-- Q14. -/
theorem test_ei : (after (.ei) { start with cicr := 0xEF }).map (fun t => t.cicr) = some (0xFF) := by decide +kernel

/-- Q14. -/
theorem test_di : (after (.di) { start with cicr := 0xFF }).map (fun t => t.cicr) = some (0xEF) := by decide +kernel

/-- Q15. -/
theorem test_scf : (after (.scf) start).map (fun t => t.flagr) = some (0x80) := by decide +kernel

/-- Q15. -/
theorem test_rcf : (after (.rcf) { start with flagr := 0xFF }).map (fun t => t.flagr) = some (0x7F) := by decide +kernel

/-- Q15. -/
theorem test_ccf : (after (.ccf) { start with flagr := 0x80 }).map (fun t => t.flagr) = some (0) := by decide +kernel

/-- Q16. -/
theorem test_spm : (after (.spm) { start with flagr := 0xFD }).map (fun t => t.flagr) = some (0xFC) := by decide +kernel

/-- Q16. -/
theorem test_sdm : (after (.sdm) { start with flagr := 0xFC }).map (fun t => t.flagr) = some (0xFD) := by decide +kernel

/-- Q18. -/
theorem test_wfi : (after (.wfi) start).map (fun t => t.runState) = some (.waiting) := by decide +kernel

/-- Q19. -/
theorem test_halt : (after (.halt) start).map (fun t => t.runState) = some (.halted) := by decide +kernel

/-- Q17: the pc wraps and nothing else changes. -/
theorem test_nop_step : next? (step { start with pc := 0xFFFF, mem := [(0xFFFF, 0xFF)] }) =
    some { start with pc := 0x0000, mem := [(0xFFFF, 0xFF)], fresh := 1 } := by decide +kernel

/-- X16 and Q20. -/
theorem test_etrap_eret :
    stop? (step { start with mem := [(0x0100, 0xCE)] }) = some (.illegalEncoding 0x0100 [0xCE]) ∧
    stop? (step { start with mem := [(0x0100, 0xEF), (0x0101, 0x31)] }) =
      some (.illegalEncoding 0x0100 [0xEF, 0x31]) := by decide +kernel

/-- Q7: a window over group D stops the access. -/
theorem test_window_over_group_d :
    stop? (exec (.ld (.xC 0 1)) { start with rp0 := 26 }) = some (.unsupportedU1 []) := by decide +kernel

/-- A request at the next boundary. -/
def asked (nmi : Bool) (seg : BitVec 6) (s : State) : State :=
  { s with inputs := [{ encsr := none, reset := none, irq := some { nmi := nmi, vector := 0x0200, seg := seg } }] }

/-- X6. -/
theorem test_interrupt_entry :
    (next? (step (asked false 0 { start with
      encsr := true, ssp := 0x2004, pc := 0x1885, csr := 5, flagr := 0x81, cicr := 0x10 }))).map
      (fun t => ((t.csr, t.pc, t.cicr), [mem t 0x2000, mem t 0x2001, mem t 0x2002, mem t 0x2003])) =
    some ((0, 0x0200, 0x00), [0x81, 0x05, 0x18, 0x85]) := by decide +kernel

/-- X8: the short frame, whose segment is not used. -/
theorem test_interrupt_entry_short :
    (next? (step (asked false 9 { start with
      ssp := 0x2003, pc := 0x1885, csr := 5, flagr := 0x40, cicr := 0xFF }))).map
      (fun t => ((t.csr, t.pc, t.cicr), [mem t 0x2000, mem t 0x2001, mem t 0x2002])) =
    some ((5, 0x0200, 0xEF), [0x40, 0x18, 0x85]) := by decide +kernel

/-- X9: a masked request is not accepted, and the instruction at the pc (EI) runs. -/
theorem test_masked_request : (next? (step (asked false 0 start))).map (fun t => (t.pc, t.cicr)) =
    some (0x0101, 0x10) := by decide +kernel

/-- X14: a halted core stays. -/
theorem test_halted_stays : (next? (step (asked true 0 { start with runState := .halted }))).map
    (fun t => (t.pc, t.runState)) = some (0x0100, .halted) := by decide +kernel

/-- The word of `JP 1024`, `8D 04 00` (E73), is placed where the next step fetches it and runs. -/
theorem test_with_fetch_word : (next? (step (State.reset.withFetchWord 24 0x8D0400))).map (fun t => t.pc) =
    some 1024 ∧ decodeTableWord 24 0x8D0400 = some (.jpt 1024) := by decide +kernel

/-! ## Witnesses: values that meet the hypotheses of the obligations -/

theorem test_witness_DecodeInvertsEncode : Instr.wf (.ldw (.k (.w25 0xFFFF 14 0xFFFF))) = true := by decide +kernel

theorem test_witness_EncodeInvertsDecode :
    decode [0x06, 0xF8, 0xFF, 0xFE, 0x12, 0x34] = .ok (.ldw (.k (.w25 0xFFFE 8 0x1234)), []) := by decide +kernel

theorem test_witness_UnassignedOperationNibbleIsReserved :
    ∀ k ∈ [0x7#4, 0xB#4, 0xC#4, 0xD#4, 0xE#4], (k = 0x7 ∨ k = 0xB ∨ k = 0xC ∨ k = 0xD ∨ k = 0xE) ∧
      KByteForm.wf (.a18 0xFFFF 14 0) = true ∧ KWordForm.wf (.w24 0x80 0 0xFFFF) = true := by decide +kernel

/-- One pair of bytes for each clause; the bounds of a nibble are met where a clause has one. -/
theorem test_witness_UnlistedPatternsAreReserved :
    (nibFlag (loNib 0xB1) = true ∧ hiNib 0xB1 ≠ 0x4 ∧ hiNib 0xB1 ≠ 0xC) ∧
    (byteFlag 0xF3 = true ∧ loNib 0xF3 ≠ 0x1) ∧ BitVec.extractLsb' 6 2 0x3F#8 = 0b00 ∧
    BitVec.extractLsb' 6 2 0xBF#8 = 0b10 ∧
    (byteFlag 0x05 = true ∧ 0x05#8 ≠ 0x01 ∧ 0x05#8 ≠ 0x03 ∧ 0x05#8 ≠ 0xC1 ∧ 0x05#8 ≠ 0xC3 ∧ 0x05#8 ≠ 0xF1 ∧
      0x05#8 ≠ 0xF3) ∧
    (byteFlag 0x03 = true ∧ 0x03#8 ≠ 0x01 ∧ 0x03#8 ≠ 0x31) ∧
    (0x11#8 ≠ 0x01 ∧ (byteFlag 0x03 = true ∨ bitFlag 0x03 = true) ∧ bitFlag 0x11 = true) ∧
    BitVec.extractLsb' 0 3 0x01#8 = 0b001 ∧ BitVec.extractLsb' 0 3 0x03#8 = 0b011 ∧
    BitVec.extractLsb' 0 3 0x07#8 = 0b111 ∧ byteFlag 0xFF = true ∧ bitFlag 0x10 = true ∧ byteFlag 0x00 = false ∧
    bitFlag 0x0F = false := by decide +kernel

theorem test_witness_StepRunsTheDecodedInstruction :
    State.reset.runState = .running ∧ State.reset.boundary.reset = none ∧
    State.reset.answered.taken State.reset.boundary.irq = none ∧
    decode State.reset.fetchWindow = .ok (.ei, [0, 0, 0, 0, 0]) := by decide +kernel

/-- A core whose next byte is reserved. -/
def lost : State := { start with mem := [(0x0100, 0xC7), (0x0101, 0x01)] }

theorem test_witness_StepStopsAtReservedEncoding :
    lost.runState = .running ∧ lost.boundary.reset = none ∧ lost.answered.taken lost.boundary.irq = none ∧
    (∃ e, decode lost.fetchWindow = .error e) := ⟨rfl, rfl, rfl, _, rfl⟩

theorem test_witness_StepKeepsStorageCanonical :
    State.reset.wf = true ∧ (next? (step State.reset)).isSome = true := by decide +kernel

theorem test_witness_StepKeepsDeviceParameters : (next? (step State.reset)).isSome = true := by decide +kernel

/-- The parameters of a reset that cuts a store short and comes with a loss of power. -/
def values : ResetParams :=
  { pc := 0x0100, flagr := 0xFF, cicr := 0xFF, rp0 := 31, rp1 := 30, twin := true, ppr := 0xFF, ssp := 1, usp := 2,
    phys := [(5, 6), (300, 1)], pages := [(1023, 9)], divwsHidden := 4, landed := [false, true],
    ramLost := [(0x007FFF, 0x55), (0x008000, 0xAA), (0x008000, 0xBB)] }

/-- A core whose next instruction is `CALL 0x3521` (D2 35 21), with rom below 0x8000, at a boundary with a reset or
without one. -/
def calling (r : Option ResetParams) : State :=
  { start with
    mem := [(0x0100, 0xD2), (0x0101, 0x35), (0x0102, 0x21), (0x7FFF, 0x11), (0x8000, 0x22)]
    ssp := 0x9002
    memRegions := [{ space := .prog, base := 0, size := 0x8000, kind := .rom },
      { space := .data, base := 0, size := 0x8000, kind := .rom }]
    inputs := [{ encsr := some true, reset := r, irq := none }] }

/-- R490, R491: of the two bytes of the return address 0x0103 only the marked one is stored; a loss of power changes
RAM and not rom. -/
theorem test_reset_cuts_a_store :
    (next? (step (calling (some values)))).map
      (fun t => ([mem t 0x9000, mem t 0x9001, mem t 0x7FFF, mem t 0x8000], t.pc, t.fresh)) =
    some ([0x00, 0x03, 0x11, 0xAA], 0x0100, 1) := by decide +kernel

/-- R490: where both bytes of a word lie at one physical address, a reset between the two stores leaves the first. -/
theorem test_reset_between_stores_to_one_byte :
    [[true], [true, true], []].map (fun l =>
      (next? (step { calling (some { values with landed := l }) with dataMap := [(0x9000, 0x009001)] })).map
        (mem · 0x9001)) = [some 0x01, some 0x03, some 0x00] := by decide +kernel

/-- A core whose next instruction is `LINK rr8,#4` (D4 D9 04) with r8 at RP0, at a boundary with a reset or without
one: the new frame pointer 0xD000 puts the window over group D after the push. -/
def linking (r : Option ResetParams) : State :=
  { start with
    rp0 := 28, rp1 := 7, mem := [(0x0100, 0xD4), (0x0101, 0xD9), (0x0102, 0x04)], ssp := 0xD002
    inputs := [{ encsr := none, reset := r, irq := none }] }

/-- U1, R490: the stop names the bytes of the push, and a reset that comes before the stop can leave any of them. -/
theorem test_reset_before_a_stop :
    stop? (step (linking none)) = some (.unsupportedU1 [(0x00D000, 0xE0), (0x00D001, 0x38)]) ∧
    (next? (step (linking (some { values with landed := [true, false] })))).map
      (fun t => [mem t 0xD000, mem t 0xD001]) = some [0xE0, 0x00] := by decide +kernel

/-- A changed byte below and above the end of rom, a step that stores and one that stops. -/
theorem test_witness_ResetWinsAtEveryBoundary :
    (calling (some values)).inputs = { encsr := some true, reset := some values, irq := none } :: [] ∧
    memKind (calling none).memRegions .prog 0x008000 = .ram ∧ values.ramLost.lookup 0x008000 = some 0xAA ∧
    memKind (calling none).memRegions .prog 0x007FFF ≠ .ram ∧ memKind (calling none).memRegions .data 0x007FFF ≠ .ram ∧
    values.ramLost.lookup 0x009001 = none ∧
    (next? (step (calling none))).map (·.stores) = some [(0x009000, 0x01), (0x009001, 0x03)] ∧
    stop? (step (linking none)) = some (.unsupportedU1 [(0x00D000, 0xE0), (0x00D001, 0x38)]) ∧
    stop? (step lost) = some (.illegalEncoding 0x0100 lost.fetchWindow) := by decide +kernel

theorem test_witness_HaltedAndWaitingCoresStay :
    start.boundary.reset = none ∧
    State.runState { start with runState := .halted } = .halted ∧
    State.runState { start with runState := .waiting } = .waiting ∧
    (asked false 0 { start with runState := .waiting, cicr := 0xEF }).boundary.irq =
      some { nmi := false, vector := 0x0200, seg := 0 } ∧
    BitVec.getLsbD 0xEF#8 4 = false := by decide +kernel

/-- A maskable request with CICR bit 4 at 0 and at 1, and a request that cannot be masked. -/
theorem test_witness_RequestsAreAcceptedByMask :
    start.runState ≠ .halted ∧ (∀ nmi, (asked nmi 0 start).inputs =
      { encsr := none, reset := none, irq := some { nmi := nmi, vector := 0x0200, seg := 0 } } :: []) ∧
    (asked false 0 start).cicr.getLsbD 4 = false ∧
    (asked false 0 { start with cicr := 0x10 }).cicr.getLsbD 4 = true ∧
    (asked true 0 start).boundary.irq.map (fun q => q.nmi) = some true := by decide +kernel

/-- A state at an interrupt: a frame of four bytes fits, across the wrap of the pointer. -/
def busy : State := asked true 5 { start with encsr := true, ssp := 2, cicr := 0x10, csr := 0x3F, flagr := 0xFF }

theorem test_witness_InterruptEntryPushesTheFrame :
    busy.runState ≠ .halted ∧ busy.boundary.reset = none ∧
    busy.boundary.irq = some { nmi := true, vector := 0x0200, seg := 5 } ∧
    busy.answered.ien = true ∧ busy.answered.push16Ok .system busy.pc = true ∧
    (busy.answered.pushed16 .system busy.pc).push8Ok .system = true ∧
    ((busy.answered.pushed16 .system busy.pc).pushed8 .system 0x3F).push8Ok .system = true := by decide +kernel

/-- A request to the routine at 0x0200. -/
def request : IrqRequest := { nmi := false, vector := 0x0200, seg := 5 }

/-- The hypotheses on a routine that changes nothing. -/
def routineOk (s t : State) : Bool :=
  decide (t.encsr = s.encsr ∧ t.sspInRegfile = s.sspInRegfile ∧ (s.encsr = false → t.csr = s.csr) ∧
    (t.rp0, t.rp1, t.twin) = (s.rp0, s.rp1, s.twin))

/-- The state at an interrupt, with the long or the short frame. -/
def busyWith (e : Bool) : State := { busy with encsr := e }

/-- The same with the system stack in the register file. -/
def busyRegs (e : Bool) : State := { busy with encsr := e, sspInRegfile := true, ssp := 0x0080 }

/-- A frame whose bytes lie at distinct addresses is usable where all of memory is ram. -/
theorem frameOk_in_ram {s : State} {k : Stack} {n : Nat} (l : List PhysAddr) (hr : s.inRegfile k = false)
    (hm : s.memRegions = []) (hf : s.frame k n = l) (hl : l.Nodup) : s.frameOk k n := by
  refine ⟨fun _ => ⟨by rw [hf]; exact hl, fun _ _ => by rw [hm]; rfl⟩, fun h => ?_⟩
  rw [hr] at h
  cases h

/-- A frame of ordinary registers is usable. -/
theorem frameOk_in_registers {s : State} {k : Stack} {n : Nat} (hr : s.inRegfile k = true)
    (h : (s.frameRegs k n).all s.ordinary = true) : s.frameOk k n :=
  ⟨fun e => (Bool.noConfusion (hr.symm.trans e)), fun _ => List.all_eq_true.mp h⟩

/-- With the long and with the short frame, in memory and in the register file. -/
theorem test_witness_IretResumesTheInterruptedProgram :
    ∀ e : Bool, (busyWith e).frameOk .system (if e then 4 else 3) ∧ (busyRegs e).frameOk .system (if e then 4 else 3) ∧
      (takeInterrupt request (busyWith e)).toOption.map (routineOk (busyWith e)) = some true ∧
      (takeInterrupt request (busyRegs e)).toOption.map (routineOk (busyRegs e)) = some true := by
  intro e
  cases e
  · exact ⟨frameOk_in_ram [0x00FFFF, 0x000000, 0x000001] rfl rfl rfl (by simp), frameOk_in_registers rfl rfl, rfl, rfl⟩
  · exact ⟨frameOk_in_ram [0x00FFFE, 0x00FFFF, 0x000000, 0x000001] rfl rfl rfl (by simp), frameOk_in_registers rfl rfl,
      rfl, rfl⟩

/-- Single and twin windows, the first and the last register of each half, over group D and elsewhere. -/
theorem test_witness_WorkingRegistersLieInTheWindow :
    (0x1F#8).toNat = 16 * ((3#5).toNat / 2) + (15#4).toNat ∧
    (0x1F#8).toNat = 8 * (3#5).toNat + (7#4).toNat ∧ (0x10#8).toNat = 8 * (2#5).toNat + ((8#4).toNat - 8) ∧
    hiNib (0x1F#8) ≠ 0xD#4 ∧ (0xDF#8).toNat = 16 * ((27#5).toNat / 2) + (15#4).toNat ∧
    (0xD8#8).toNat = 8 * (27#5).toNat + (0#4).toNat ∧ hiNib (0xDF#8) = 0xD#4 := by decide +kernel

/-- Places below 240 and from 256 on; the two register pointers are not apart. -/
theorem test_witness_RegisterWriteReachesOneRegister :
    start.slot (start.addr 0xDF) = 31 ∧ start.slot (start.addr 232) = 232 ∧ start.slot (start.addr 255) = 271 ∧
    isSlot 239 = true ∧ isSlot 256 = true ∧ isSlot 240 = false ∧ slotsApart 31 256 = true ∧
    slotsApart 232 233 = false ∧ slotsApart 231 232 = true := by decide +kernel

/-- Program memory below 0x8000 is rom. -/
def withRom : State :=
  { start with memRegions := [{ space := .prog, base := 0, size := 0x8000, kind := .rom }] }

theorem test_witness_MemoryReadsBackItsWrites :
    memKind withRom.memRegions .prog (withRom.translate .prog 0x8000) = .ram ∧
    memKind withRom.memRegions .prog (withRom.translate .prog 0x7FFF) ≠ .ram ∧
    (0x007FFF : PhysAddr) ≠ withRom.translate .prog 0x8000 := by decide +kernel

theorem test_witness_WordsLieHighByteFirst :
    memKind start.memRegions .data (start.translate .data 0xFFFF) = .ram ∧
    memKind start.memRegions .data (start.translate .data (0xFFFF + 1)) = .ram ∧
    start.translate .data 0xFFFF ≠ start.translate .data (0xFFFF + 1) := by decide +kernel

theorem test_witness_OperandSpaceFollowsDp :
    (after .sdm start).isSome = true ∧ (after .spm start).isSome = true := by decide +kernel

theorem test_witness_InstructionsStoreOnlyWhereTheySay :
    (after (.push (.imm 5)) start).isSome = true ∧ 0xFFFE ∉ Instr.stores (.push (.imm 5)) start ∧
    0xFFFF ∈ Instr.stores (.push (.imm 5)) start := by decide +kernel

theorem test_witness_ControlStateChangesOnlyByItsInstructions :
    (after (.push (.imm 5)) start).isSome = true ∧ Instr.writesCsr (.push (.imm 5)) = false ∧
    Instr.writesRunState (.push (.imm 5)) = false ∧ Instr.writesPc (.push (.imm 5)) = false ∧
    (∀ h l v, Instr.push (.imm 5) ≠ .divws h l v) :=
  ⟨rfl, rfl, rfl, rfl, fun _ _ _ h => Instr.noConfusion h⟩

theorem test_witness_OtherRegistersStay :
    Instr.written (.ext 0xD4) start = some [0xD4] ∧ (after (.ext 0xD4) start).isSome = true ∧ isSlot 21 = true ∧
    (∀ a ∈ [0xD4#8], slotsApart (start.slot (start.addr a)) 21 = true) ∧ Instr.keepsFlags (.ext 0xD4) = true := by
  decide +kernel

/-- A window over group D: no working register is reachable, every other register is. -/
def barred : State := { start with rp0 := 26 }

/-- The forms with a pre-decrement, with a post-increment and with neither, and under a window over group D the
forms that name no working register. -/
theorem test_witness_ByteOperationsComplete :
    ∀ x ∈ [(AluByteForm.k (.a11 0xD4 4), start), (.k (.a12 4 0xD5), start), (.k (.a9 0xD4 4), start),
        (.k (.a10 14 0xFF), start), (.a1 0 15, start), (.a3 0xFF 0xDF, start), (.a3 0xFF 0xCF, barred),
        (.a4 0xE0 1, barred), (.k (.a23 5 1), barred)],
      AluByteForm.startOk x.1 x.2 = true ∧ AluByteForm.readable x.1 (AluByteForm.started x.1 x.2) = true ∧
      (AluByteForm.started x.1 x.2).byteOk (AluByteForm.loc x.1 (AluByteForm.started x.1 x.2)) = true ∧
      AluByteForm.finishOk x.1 (((AluByteForm.started x.1 x.2).putByte
        (AluByteForm.loc x.1 (AluByteForm.started x.1 x.2)) 0x12).setFlags (byteFlags 0x12 none none)) = true := by
  decide +kernel

/-- The forms with a pre-decrement, with a post-increment, with a pair address and with none of them, and under a
window over group D the forms that name no working register. -/
theorem test_witness_WordOperationsComplete :
    ∀ x ∈ [(AluWordForm.k (.w12 0xD4 4), start), (.k (.w13 4 0xD4), start), (.k (.w10 0xD4 4), start),
        (.k (.w11 14 0xFE), start), (.w4 0 14, start), (.k (.w7 8 2), start), (.w5 0xFE 0xCE, barred),
        (.w6 0xE0 1, barred), (.k (.w26 5 1), barred)],
      AluWordForm.startOk x.1 x.2 = true ∧ AluWordForm.readable x.1 (AluWordForm.started x.1 x.2) = true ∧
      AluWordForm.even x.1 (AluWordForm.started x.1 x.2) = true ∧
      (AluWordForm.started x.1 x.2).wordOk (AluWordForm.loc x.1 (AluWordForm.started x.1 x.2)) = true ∧
      (AluWordForm.started x.1 x.2).putWordOk (AluWordForm.loc x.1 (AluWordForm.started x.1 x.2)) 0x1234 = true ∧
      AluWordForm.finishOk x.1 (((AluWordForm.started x.1 x.2).putWord
        (AluWordForm.loc x.1 (AluWordForm.started x.1 x.2)) 0x1234).setFlags (wordFlags 0x1234 none none)) = true := by
  decide +kernel

/-- Under a window over group D too, for the forms that name no working register. -/
theorem test_witness_LdCompletes :
    ∀ x ∈ [(LdForm.k (.a11 0xD4 4), start), (.d7Load 4 4, start), (.d7Store 14 15, start), (.x8 0 0xFF, start),
        (.b2 0xFF 0 15, start), (.f4 0xCF 0xE0, barred), (.f5 0xFF 1, barred)],
      LdForm.startOk x.1 x.2 = true ∧ LdForm.readable x.1 (LdForm.started x.1 x.2) = true ∧
      (LdForm.started x.1 x.2).byteOk (LdForm.loc x.1 (LdForm.started x.1 x.2)) = true ∧
      LdForm.finishOk x.1 ((LdForm.started x.1 x.2).putByte (LdForm.loc x.1 (LdForm.started x.1 x.2))
        (LdForm.value x.1 (LdForm.started x.1 x.2))) = true := by decide +kernel

/-- Under a window over group D too, for the forms that name no working register. -/
theorem test_witness_LdwCompletes :
    ∀ x ∈ [(LdwForm.k (.w12 0xD4 4), start), (.k (.w10 0xD4 4), start), (.k (.w7 0 0xFE), start),
        (.deStore 0xFE 15 14, start), (.deLoad 14 0 0, start), (.e3Move 0 2, start), (.ef 0xCE 0xE0, barred),
        (.bf 0xFE 1, barred)],
      LdwForm.startOk x.1 x.2 = true ∧ LdwForm.readable x.1 (LdwForm.started x.1 x.2) = true ∧
      LdwForm.even x.1 (LdwForm.started x.1 x.2) = true ∧
      (LdwForm.started x.1 x.2).putWordOk (LdwForm.loc x.1 (LdwForm.started x.1 x.2))
        (LdwForm.value x.1 (LdwForm.started x.1 x.2)) = true ∧
      LdwForm.finishOk x.1 ((LdwForm.started x.1 x.2).putWord (LdwForm.loc x.1 (LdwForm.started x.1 x.2))
        (LdwForm.value x.1 (LdwForm.started x.1 x.2))) = true := by decide +kernel

theorem test_witness_OddPairAddressStops :
    (given [(24, 0xFF)]).wOk 8 = true ∧ byteFlag ((given [(24, 0xFF)]).w 8) = true ∧ start.wOk 0 = true ∧
    byteFlag (0xFF + start.w 0) = true := by decide +kernel

theorem test_witness_SpaceCopiesComplete :
    (Instr.ldpd 8 12, Space.prog, Space.data) ∈ [(Instr.ldpp 8 12, Space.prog, Space.prog),
      (.lddp 8 12, .data, .prog), (.ldpd 8 12, .prog, .data), (.lddd 8 12, .data, .data)] ∧
    apart.wwOk 8 = true ∧ apart.wwOk 12 = true ∧ apart.bumpOk 8 1 = true ∧ (apart.bumped 8 1).bumpOk 12 1 = true := by decide +kernel

theorem test_witness_ByteUnariesComplete :
    start.targetReachable (.direct 0xDF) = true ∧ start.targetReachable (.indirect 0xFF) = true := by decide +kernel

theorem test_witness_WordUnariesComplete :
    start.pairReachable 0xFE = true ∧ start.pairSettable 0xDE (0xFFFF + 1) = true ∧
    start.pairSettable 0xDE (0 - 1) = true := by decide +kernel

theorem test_witness_DecimalAdjustGivesBcdResults :
    (add8 (bcd 99) (bcd 99) true).flags.c = some true ∧ (add8 (bcd 99) (bcd 99) true).flags.d = some false ∧
    (add8 (bcd 99) (bcd 99) true).flags.h = some true ∧ (sub8 (bcd 0) (bcd 99) true).flags.c = some true ∧
    (sub8 (bcd 0) (bcd 99) true).flags.d = some true ∧ (sub8 (bcd 0) (bcd 99) true).flags.h = some true := by decide +kernel

/-- The start with both stacks in the register file. -/
def inFile : State := { start with sspInRegfile := true, uspInRegfile := true, ssp := 0x0080, usp := 0x0040 }

theorem test_witness_PushesComplete :
    ∀ s ∈ [start, inFile], s.pushReachable (.reg (.indirect 0xD0)) = true ∧ s.push8Ok .user = true ∧
      Instr.pushedWord (.pea (.short 0xFE 32)) s = some (.system, 0xFFFE) ∧ s.push16Ok .system 0xFFFE = true := by
  decide +kernel

theorem test_witness_PopsComplete :
    ∀ s ∈ [start, inFile], (∀ r, ByteTarget.indirect 0xD0 = .indirect r → s.reachable r = true) ∧
      s.pop8Ok .user = true ∧ (s.dropped .user 1).reachable (s.target (.indirect 0xD0)) = true ∧
      s.pop16Ok .system = true ∧ (s.dropped .system 2).pairSettable 0xFE (s.top16 .system) = true := by
  intro s hs
  fin_cases hs <;> refine ⟨?_, rfl, rfl, rfl, rfl⟩ <;> rintro r ⟨⟩ <;> rfl

theorem test_witness_LinksAndUnlinksComplete :
    start.inRegfile .user = false ∧ start.pairReachable 4 = true ∧
    (start.pushed16 .user (start.pair 4)).pairSettable 4 ((start.pushed16 .user (start.pair 4)).sp .user) = true ∧
    inFile.inRegfile .system = true ∧ inFile.reachable (4 + 1) = true ∧ inFile.push8Ok .system = true ∧
    (inFile.pushed8 .system (inFile.reg (4 + 1))).reachable (4 + 1) = true ∧
    ((start.setSp .user (start.pair 4)).dropped .user 2).pairSettable 4
      ((start.setSp .user (start.pair 4)).top16 .user) = true ∧
    (inFile.setSpLow .system (inFile.reg (4 + 1))).pop8Ok .system = true ∧
    (inFile.setSpLow .system (inFile.reg (4 + 1))).reachable (4 + 1) = true := by decide +kernel

/-- One place below address 0 in memory, and R127 and R126 in the register file. -/
theorem test_witness_PopUndoesPush :
    (start.frameOk .user 1 ∧ inFile.frameOk .system 1) ∧ (start.frameOk .user 2 ∧ inFile.frameOk .system 2) ∧
    (∀ s ∈ [start, inFile], s.pushReachable (.reg (.direct 237)) = true ∧ s.reachable 236 = true) ∧
    (after (Instr.ofPush .user (.reg (.direct 237))) start).isSome = true ∧
    (after (Instr.ofPush .system (.imm 255)) inFile).isSome = true ∧
    Instr.pushedWord (.pushuw (.imm 0xFFFF)) start = some (.user, 0xFFFF) ∧
    Instr.pushedWord (.pea (.long 0xFFFF 32)) inFile = some (.system, 0xFFFF) ∧
    start.pairSettable 0xFE 0xFFFF = true ∧ inFile.pairSettable 0xFE 0xFFFF = true ∧
    (after (.pushuw (.imm 0xFFFF)) start).isSome = true ∧ (after (.pea (.long 0xFFFF 32)) inFile).isSome = true :=
  ⟨⟨frameOk_in_ram [0x00FFFF] rfl rfl rfl (by simp), frameOk_in_registers rfl rfl⟩,
    ⟨frameOk_in_ram [0x00FFFE, 0x00FFFF] rfl rfl rfl (by simp), frameOk_in_registers rfl rfl⟩, by decide +kernel⟩

/-- The last pair below group D, both stacks, in memory and in the register file. -/
theorem test_witness_UnlinkUndoesLink :
    RegPair.wf 206 = true ∧ (206#8).toNat < 208 ∧ (start.frameOk .user 2 ∧ inFile.frameOk .system 1) ∧
    (after (Instr.ofLink .user 206 255) start).isSome = true ∧
    (after (Instr.ofLink .system 206 255) inFile).isSome = true ∧
    inFile.addr (inFile.spLow .system - 1) ≠ 206 + 1 :=
  ⟨rfl, by decide, ⟨frameOk_in_ram [0x00FFFE, 0x00FFFF] rfl rfl rfl (by simp), frameOk_in_registers rfl rfl⟩,
    by decide +kernel⟩

theorem test_witness_MulCompletes :
    WPair.wf 6 = true ∧ (given [(23, 0xFF), (24, 0xFF)]).wOk (6 + 1) = true ∧
    (given [(23, 0xFF), (24, 0xFF)]).wOk 8 = true ∧
    (65025#16).toNat = ((given [(23, 0xFF), (24, 0xFF)]).w (6 + 1)).toNat *
      ((given [(23, 0xFF), (24, 0xFF)]).w 8).toNat ∧
    (given [(23, 0xFF), (24, 0xFF)]).pairSettable (wregAddr 6) 65025 = true := by decide +kernel

/-- The greatest quotient that fits and the least that does not: 7679 = 255 * 30 + 29, 7680 = 256 * 30. -/
theorem test_witness_DivCompletes :
    WPair.wf 8 = true ∧ (given [(24, 0x1D), (25, 0xFF), (22, 30)]).wwOk 8 = true ∧
    (given [(24, 0x1D), (25, 0xFF), (22, 30)]).wOk 6 = true ∧
    ((given [(24, 0x1D), (25, 0xFF), (22, 30)]).ww 8).toNat = (255#8).toNat * 30 + (29#8).toNat ∧
    ((given [(24, 0x1D), (25, 0xFF), (22, 30)]).w 6).toNat = 30 ∧ (29#8).toNat < 30 ∧
    ((given [(24, 0x1D), (25, 0xFF), (22, 30)]).setReg (wregAddr 8) 29).wOk (8 + 1) = true ∧
    256 * 30 ≤ ((given [(24, 0x1E), (25, 0x00), (22, 30)]).ww 8).toNat := by decide +kernel

theorem test_witness_DivByZeroTraps :
    start.wwOk 6 = true ∧ start.wOk 6 = true ∧ start.w 6 = 0 ∧ start.push16Ok .system start.pc = true := by decide +kernel

/-- Whatever the open step writes; and M19: the sixteen steps of 65536 by 3. -/
theorem test_witness_DivwsCompletes : (start.wwOk 6 = true ∧ start.wwOk 8 = true ∧ start.pairReachable 10 = true ∧
      ∀ v w : Word, start.pairSettable (wregAddr 6) v = true ∧
        (start.setPair (wregAddr 6) v).pairSettable (wregAddr 8) w = true) ∧
    (∀ a ∈ [wregAddr 6, wregAddr 6 + 1, wregAddr 8, wregAddr 8 + 1, 10, 10 + 1],
      (given [(23, 1), (11, 3)]).ordinary a = true) ∧
    ([wregAddr 6, wregAddr 6 + 1, wregAddr 8, wregAddr 8 + 1, 10, 10 + 1].map (given [(23, 1), (11, 3)]).addr).Nodup ∧
    65536 = 65536 * ((given [(23, 1), (11, 3)]).ww 6).toNat + ((given [(23, 1), (11, 3)]).ww 8).toNat ∧
    3 = ((given [(23, 1), (11, 3)]).pair 10).toNat ∧ ((given [(23, 1), (11, 3)]).ww 6).toNat < 3 := by
  refine ⟨⟨rfl, rfl, rfl, fun v w => ⟨State.pairSettable_of_ordinary _ rfl rfl, ?_⟩⟩, by decide +kernel⟩
  apply State.pairSettable_of_ordinary <;> rw [State.ordinary_setPair_ordinary _ rfl rfl] <;> rfl

theorem test_witness_BitWritesComplete :
    start.wOk 4 = true ∧ start.wOk 15 = true ∧ ∀ (z : Bool) (j : Fin 8),
      (if z then 0x80#8 else 0x00#8).getLsbD j = if j.val = (7#3).toNat then z else (start.w 4).getLsbD j := by decide +kernel

theorem test_witness_BtsetCompletes : start.wOk 15 = true ∧ start.wwOk 14 = true := by decide +kernel

theorem test_witness_TestingJumpsComplete :
    start.reachable (wregAddr 15) = true ∧ start.wOk 15 = true ∧ start.wwOk 14 = true ∧ start.bumpOk 14 1 = true ∧
    start.w 15 = start.srcByte (start.ww 14) ∧
    (given [(31, 1)]).w 15 ≠ (given [(31, 1)]).srcByte ((given [(31, 1)]).ww 12) ∧
    (given [(31, 1)]).bumpOk 12 1 = true := by decide +kernel

theorem test_witness_JumpsAndCallsComplete :
    ∀ s ∈ [start, inFile], s.pairReachable 0xDE = true ∧ s.farReachable (.indirect 0xFF 14) = true ∧
      s.push16Ok .system s.pc = true ∧ (s.pushed16 .system s.pc).push8Ok .system = true := by decide +kernel

theorem test_witness_ReturnsComplete :
    ∀ s ∈ [start, inFile, { start with encsr := true }], s.pop8Ok .system = true ∧
      State.pop16Ok { s.dropped .system 1 with csr := (s.top8 .system).extractLsb' 0 6 } .system = true ∧
      State.pop8Ok { s.dropped .system 1 with flagr := s.top8 .system } .system = true ∧
      State.pop16Ok { (s.dropped .system 1).dropped .system 1 with flagr := 0 } .system = true := by decide +kernel

theorem test_witness_ReturnsUndoCalls :
    (start.frameOk .system 3 ∧ start.frameOk .system 2 ∧ inFile.frameOk .system 3 ∧ inFile.frameOk .system 2) ∧
    ∀ s ∈ [start, inFile], (after (.call (.direct 0x0200)) s).isSome = true ∧
      (after (.calls (.direct 63 0x0200)) s).isSome = true :=
  ⟨⟨frameOk_in_ram [0x00FFFD, 0x00FFFE, 0x00FFFF] rfl rfl rfl (by simp),
    frameOk_in_ram [0x00FFFE, 0x00FFFF] rfl rfl rfl (by simp), frameOk_in_registers rfl rfl,
    frameOk_in_registers rfl rfl⟩, by decide +kernel⟩

/-- Counters in R207, the last below group D, and in R224, the first of group E. -/
theorem test_witness_DecrementJumpsComplete :
    State.reachable { start with rp0 := 24 } (wregAddr 15) = true ∧
    (State.addr { start with rp0 := 24 } (wregAddr 15)).toNat = 207 ∧
    State.reachable { start with rp0 := 28 } (wregAddr 0) = true ∧
    (State.addr { start with rp0 := 28 } (wregAddr 0)).toNat = 224 ∧
    start.pairReachable 206 = true ∧ start.pairSettable 206 (start.pair 206 - 1) = true ∧
    (start.addr 206).toNat < 224 ∧ start.pairReachable 224 = true ∧
    start.pairSettable 224 (start.pair 224 - 1) = true ∧ 224 ≤ (start.addr 224).toNat := by decide +kernel

theorem test_witness_WindowAndPageInstructionsComplete : (7#4).toNat < 8 ∧ 8 ≤ (8#4).toNat := by decide +kernel

theorem test_witness_ExchangeAndExtendComplete :
    start.reachable 232 = true ∧ start.reachable 0xDF = true ∧
    (start.setReg 232 (start.reg 0xDF)).reachable 0xDF = true ∧ start.pairReachable 0xDE = true ∧
    word 0x00 (start.reg (0xDE + 1)) = (start.reg (0xDE + 1)).signExtend 16 := by decide +kernel

end Sys2Proof.Tests
end

section
/-! SUPPORT. What a step can do to the state, said once: every instruction and every interrupt entry is a chain of
single writes, and each kind of write says what it leaves alone. The invariants of all steps follow by induction on
the chain. -/

namespace Sys2Proof.Machine

/-! ### Chains of writes -/

/-- The parts of the state that only certain instructions write (10_state.md R30, R38, R42, 44_muldiv.md R342). -/
inductive ControlPart
  | pc
  | csr
  | runState
  | divwsHidden

/-- One write to the state; a control part is written only where `may` holds of it. -/
inductive Write (may : ControlPart → Prop) : State → State → Prop
  | cell (s : State) (p v : Byte) : Write may s (s.setCell p v)
  | memory (s : State) (sp : Space) (a : Word) (v : Byte) : Write may s (s.setMemByte sp a v)
  | stackPointer (s : State) (k : Stack) (v : Word) : Write may s (s.setSp k v)
  | flagr (s : State) (r : Byte) : Write may s { s with flagr := r }
  | ien (s : State) (b : Bool) : Write may s (s.setIen b)
  | window (s : State) (g h : BitVec 5) (b : Bool) : Write may s { s with rp0 := g, rp1 := h, twin := b }
  | page (s : State) (r : Byte) : Write may s { s with ppr := r }
  | pc (h : may .pc) (s : State) (t : Word) : Write may s { s with pc := t }
  | csr (h : may .csr) (s : State) (g : BitVec 6) : Write may s { s with csr := g }
  | runState (h : may .runState) (s : State) (r : RunState) : Write may s { s with runState := r }
  | divwsHidden (h : may .divwsHidden) (s : State) (n : Nat) : Write may s { s with divwsHidden := n }

/-- Any number of writes, one after the other. -/
abbrev Writes (may : ControlPart → Prop) : State → State → Prop := Relation.ReflTransGen (Write may)

variable {may : ControlPart → Prop}

theorem Writes.one {s t : State} (h : Write may s t) : Writes may s t := .single h

theorem Writes.trans {s t u : State} (h : Writes may s t) (h' : Writes may t u) : Writes may s u :=
  Relation.ReflTransGen.trans h h'

/-- A part of the state that no single write changes is unchanged by a chain of them. -/
theorem Writes.keeps {α : Type} (part : State → α) (h : ∀ s t, Write may s t → part t = part s) {s t : State}
    (hw : Writes may s t) : part t = part s := by
  induction hw with
  | refl => rfl
  | tail _ hstep ih => exact (h _ _ hstep).trans ih

theorem Write.wf {s t : State} (hw : Write may s t) (h : s.wf = true) : t.wf = true := by
  cases hw with
  | cell => exact State.wf_setCell _ _ h
  | memory => exact State.wf_setMemByte _ _ _ h
  | stackPointer => exact State.wf_setSp _ _ h
  | _ => exact h

theorem Writes.wf {s t : State} (hw : Writes may s t) (h : s.wf = true) : t.wf = true := by
  induction hw with
  | refl => exact h
  | tail _ hstep ih => exact hstep.wf ih

/-! ### Single writes and pairs of them -/

variable {s t : State}

theorem Writes.setReg (s : State) (a v : Byte) : Writes may s (s.setReg a v) := .one (.cell ..)

theorem Writes.setPair (s : State) (a : Byte) (v : Word) : Writes may s (s.setPair a v) :=
  (Writes.setReg ..).trans (Writes.setReg ..)

theorem Writes.setMemByte (s : State) (sp : Space) (a : Word) (v : Byte) : Writes may s (s.setMemByte sp a v) :=
  .one (.memory ..)

theorem Writes.setMemWord (s : State) (sp : Space) (a v : Word) : Writes may s (s.setMemWord sp a v) :=
  (Writes.setMemByte ..).trans (Writes.setMemByte ..)

theorem Writes.setSp (s : State) (k : Stack) (v : Word) : Writes may s (s.setSp k v) := .one (.stackPointer ..)

theorem Writes.setFlags (s : State) (u : FlagUpdate) : Writes may s (s.setFlags u) := .one (.flagr ..)

theorem Writes.jump (h : may .pc) (s : State) (a : Word) : Writes may s (s.jump a) := .one (.pc h ..)

theorem Writes.jumpWhen (h : may .pc) (c : Prop) [Decidable c] (s : State) (a : Word) :
    Writes may s (if c then s.jump a else s) := by
  split
  · exact .jump h ..
  · exact .refl

theorem Writes.enter (hpc : may .pc) (hcsr : may .csr) (hrun : may .runState) (s : State) (g : BitVec 6) (a : Word)
    (r : RunState) : Writes may s { s with csr := g, pc := a, runState := r } :=
  (Writes.one (.csr hcsr s g)).trans ((Writes.jump hpc ..).trans (.one (.runState hrun { s with csr := g, pc := a } r)))

/-! ### The operations over registers and stacks -/

theorem writeReg_writes {a v : Byte} (h : writeReg a v s = .ok t) : Writes may s t := by
  obtain ⟨-, rfl⟩ := writeReg_ok_iff.1 h
  exact .setReg ..

theorem writePair_writes {a : Byte} {v : Word} (h : writePair a v s = .ok t) : Writes may s t := by
  obtain ⟨-, rfl⟩ := writePair_ok_iff.1 h
  exact .setPair ..

theorem bumpWW_writes {n : WPair} {d : Word} (h : bumpWW n d s = .ok t) : Writes may s t := by
  obtain ⟨v, -, h⟩ := Res.bind_eq_ok.1 h
  exact writePair_writes h

theorem bumpW_writes {n : WReg} (h : bumpW n s = .ok t) : Writes may s t := by
  obtain ⟨v, -, h⟩ := Res.bind_eq_ok.1 h
  exact writeReg_writes h

theorem store8_writes {l : Loc} {v : Byte} (h : store8 l v s = .ok t) : Writes may s t := by
  cases l with
  | reg a => exact writeReg_writes h
  | mem a => cases h; exact .setMemByte ..

theorem store16_writes {l : Loc} {v : Word} (h : store16 l v s = .ok t) : Writes may s t := by
  cases l with
  | reg a => exact writePair_writes h
  | mem a => cases h; exact .setMemWord ..

theorem push8_writes {k : Stack} {v : Byte} (h : push8 k v s = .ok t) : Writes may s t := by
  unfold push8 at h
  split at h
  · exact (Writes.setSp ..).trans (writeReg_writes h)
  · cases h; exact (Writes.setSp ..).trans (.setMemByte ..)

theorem push16_writes {k : Stack} {w : Word} (h : push16 k w s = .ok t) : Writes may s t := by
  unfold push16 at h
  split at h
  · obtain ⟨u, hhigh, hlow⟩ := Res.bind_eq_ok.1 h
    exact ((Writes.setSp ..).trans (writeReg_writes hhigh)).trans (writeReg_writes hlow)
  · cases h; exact (Writes.setSp ..).trans (.setMemWord ..)

theorem pop8_writes {k : Stack} {v : Byte} (h : pop8 k s = .ok (v, t)) : Writes may s t := by
  unfold pop8 at h
  split at h
  · obtain ⟨b, -, h⟩ := Res.bind_eq_ok.1 h
    cases h; exact .setSp ..
  · cases h; exact .setSp ..

theorem pop16_writes {k : Stack} {w : Word} (h : pop16 k s = .ok (w, t)) : Writes may s t := by
  unfold pop16 at h
  split at h
  · simp only [Res.bind_eq_ok] at h
    obtain ⟨b, -, c, -, h⟩ := h
    cases h; exact .setSp ..
  · cases h; exact .setSp ..

/-! ### Pre-decrements and post-increments -/

theorem KByteForm.pre_writes {f : KByteForm} (h : KByteForm.pre f s = .ok t) : Writes may s t := by
  cases f
  case a11 | a12 => exact bumpWW_writes h
  all_goals cases h; exact .refl

theorem KByteForm.post_writes {f : KByteForm} (h : KByteForm.post f s = .ok t) : Writes may s t := by
  cases f
  case a9 | a10 => exact bumpWW_writes h
  all_goals cases h; exact .refl

theorem AluByteForm.pre_writes {f : AluByteForm} (h : AluByteForm.pre f s = .ok t) : Writes may s t := by
  cases f
  case k => exact KByteForm.pre_writes h
  all_goals cases h; exact .refl

theorem AluByteForm.post_writes {f : AluByteForm} (h : AluByteForm.post f s = .ok t) : Writes may s t := by
  cases f
  case k => exact KByteForm.post_writes h
  all_goals cases h; exact .refl

theorem LdForm.pre_writes {f : LdForm} (h : LdForm.pre f s = .ok t) : Writes may s t := by
  cases f
  case k => exact KByteForm.pre_writes h
  all_goals cases h; exact .refl

theorem LdForm.post_writes {f : LdForm} (h : LdForm.post f s = .ok t) : Writes may s t := by
  cases f
  case k => exact KByteForm.post_writes h
  case d7Load | d7Store =>
    obtain ⟨u, hfirst, hsecond⟩ := Res.bind_eq_ok.1 h
    exact (bumpW_writes hfirst).trans (bumpWW_writes hsecond)
  all_goals cases h; exact .refl

theorem KWordForm.pre_writes {f : KWordForm} (h : KWordForm.pre f s = .ok t) : Writes may s t := by
  cases f
  case w12 | w13 => exact bumpWW_writes h
  all_goals cases h; exact .refl

theorem KWordForm.post_writes {f : KWordForm} (h : KWordForm.post f s = .ok t) : Writes may s t := by
  cases f
  case w10 | w11 => exact bumpWW_writes h
  all_goals cases h; exact .refl

theorem AluWordForm.pre_writes {f : AluWordForm} (h : AluWordForm.pre f s = .ok t) : Writes may s t := by
  cases f
  case k => exact KWordForm.pre_writes h
  all_goals cases h; exact .refl

theorem AluWordForm.post_writes {f : AluWordForm} (h : AluWordForm.post f s = .ok t) : Writes may s t := by
  cases f
  case k => exact KWordForm.post_writes h
  all_goals cases h; exact .refl

theorem LdwForm.pre_writes {f : LdwForm} (h : LdwForm.pre f s = .ok t) : Writes may s t := by
  cases f
  case k => exact KWordForm.pre_writes h
  all_goals cases h; exact .refl

theorem LdwForm.post_writes {f : LdwForm} (h : LdwForm.post f s = .ok t) : Writes may s t := by
  cases f
  case k => exact KWordForm.post_writes h
  all_goals cases h; exact .refl

/-! ### The meanings that instructions share -/

theorem aluByte_writes {op : AluOp} {f : AluByteForm} (h : aluByte op f s = .ok t) : Writes may s t := by
  simp only [aluByte, storeResult8, Res.bind_eq_ok] at h
  obtain ⟨u, hpre, l, -, v, -, d, -, w, hstore, hpost⟩ := h
  refine (AluByteForm.pre_writes hpre).trans (.trans ?_ ((Writes.setFlags ..).trans (AluByteForm.post_writes hpost)))
  split at hstore
  · exact store8_writes hstore
  · cases hstore; exact .refl

theorem aluWord_writes {op : AluOp} {f : AluWordForm} (h : aluWord op f s = .ok t) : Writes may s t := by
  simp only [aluWord, storeResult16, Res.bind_eq_ok] at h
  obtain ⟨u, hpre, l, -, v, -, d, -, w, hstore, hpost⟩ := h
  refine (AluWordForm.pre_writes hpre).trans (.trans ?_ ((Writes.setFlags ..).trans (AluWordForm.post_writes hpost)))
  split at hstore
  · exact store16_writes hstore
  · cases hstore; exact .refl

theorem loadByte_writes {f : LdForm} (h : loadByte f s = .ok t) : Writes may s t := by
  simp only [loadByte, Res.bind_eq_ok] at h
  obtain ⟨u, hpre, l, -, v, -, w, hstore, hpost⟩ := h
  exact (LdForm.pre_writes hpre).trans ((store8_writes hstore).trans (LdForm.post_writes hpost))

theorem loadWord_writes {f : LdwForm} (h : loadWord f s = .ok t) : Writes may s t := by
  simp only [loadWord, Res.bind_eq_ok] at h
  obtain ⟨u, hpre, l, -, v, -, w, hstore, hpost⟩ := h
  exact (LdwForm.pre_writes hpre).trans ((store16_writes hstore).trans (LdwForm.post_writes hpost))

theorem copyByte_writes {spd sps : Space} {rrd rrs : WPair} (h : copyByte spd sps rrd rrs s = .ok t) :
    Writes may s t := by
  simp only [copyByte, Res.bind_eq_ok] at h
  obtain ⟨a, -, d, -, u, hdst, hsrc⟩ := h
  exact (Writes.setMemByte ..).trans ((bumpWW_writes hdst).trans (bumpWW_writes hsrc))

theorem unaryByte_writes {g : State → Byte → ByteResult} {r : ByteTarget} (h : unaryByte g r s = .ok t) :
    Writes may s t := by
  simp only [unaryByte, Res.bind_eq_ok] at h
  obtain ⟨a, -, d, -, u, hstore, h⟩ := h
  cases h
  exact (writeReg_writes hstore).trans (.setFlags ..)

theorem unaryWord_writes {g : State → Word → WordResult} {rr : RegPair} (h : unaryWord g rr s = .ok t) :
    Writes may s t := by
  simp only [unaryWord, Res.bind_eq_ok] at h
  obtain ⟨d, -, u, hstore, h⟩ := h
  cases h
  exact (writePair_writes hstore).trans (.setFlags ..)

theorem clearByte_writes {r : ByteTarget} (h : clearByte r s = .ok t) : Writes may s t := by
  obtain ⟨a, -, h⟩ := Res.bind_eq_ok.1 h
  exact writeReg_writes h

theorem pushByteOn_writes {k : Stack} {f : PushForm} (h : pushByteOn k f s = .ok t) : Writes may s t := by
  obtain ⟨v, -, h⟩ := Res.bind_eq_ok.1 h
  exact push8_writes h

theorem pushWordOn_writes {k : Stack} {f : PushWordForm} (h : pushWordOn k f s = .ok t) : Writes may s t := by
  obtain ⟨w, -, h⟩ := Res.bind_eq_ok.1 h
  exact push16_writes h

theorem pushAddrOn_writes {k : Stack} {f : PeaForm} (h : pushAddrOn k f s = .ok t) : Writes may s t := by
  obtain ⟨w, -, h⟩ := Res.bind_eq_ok.1 h
  exact push16_writes h

theorem popByteFrom_writes {k : Stack} {r : ByteTarget} (h : popByteFrom k r s = .ok t) : Writes may s t := by
  simp only [popByteFrom, Res.bind_eq_ok] at h
  obtain ⟨a, -, ⟨v, u⟩, hpop, hstore⟩ := h
  exact (pop8_writes hpop).trans (writeReg_writes hstore)

theorem popWordFrom_writes {k : Stack} {rr : RegPair} (h : popWordFrom k rr s = .ok t) : Writes may s t := by
  obtain ⟨⟨w, u⟩, hpop, hstore⟩ := Res.bind_eq_ok.1 h
  exact (pop16_writes hpop).trans (writePair_writes hstore)

theorem linkOn_writes {k : Stack} {rr : RegPair} {n : Byte} (h : linkOn k rr n s = .ok t) : Writes may s t := by
  unfold linkOn at h
  split at h
  · simp only [Res.bind_eq_ok] at h
    obtain ⟨v, -, u, hpush, w, hstore, h⟩ := h
    cases h
    exact (push8_writes hpush).trans ((writeReg_writes hstore).trans ((Writes.setSp ..).trans (.setSp ..)))
  · simp only [Res.bind_eq_ok] at h
    obtain ⟨v, -, u, hpush, w, hstore, h⟩ := h
    cases h
    exact (push16_writes hpush).trans ((writePair_writes hstore).trans (.setSp ..))

theorem unlinkFrom_writes {k : Stack} {rr : RegPair} (h : unlinkFrom k rr s = .ok t) : Writes may s t := by
  unfold unlinkFrom at h
  split at h
  · simp only [Res.bind_eq_ok] at h
    obtain ⟨l, -, ⟨v, u⟩, hpop, w, hstore, h⟩ := h
    cases h
    exact (Writes.setSp ..).trans ((pop8_writes hpop).trans ((writeReg_writes hstore).trans (.setSp ..)))
  · simp only [Res.bind_eq_ok] at h
    obtain ⟨p, -, ⟨w, u⟩, hpop, hstore⟩ := h
    exact (Writes.setSp ..).trans ((pop16_writes hpop).trans (writePair_writes hstore))

theorem multiply_writes {rrd : WPair} {rs : WReg} (h : multiply rrd rs s = .ok t) : Writes may s t := by
  simp only [multiply, Res.bind_eq_ok] at h
  obtain ⟨a, -, b, -, u, hstore, h⟩ := h
  cases h
  exact (writePair_writes hstore).trans (.setFlags ..)

theorem takeDivideByZero_writes (hpc : may .pc) (h : takeDivideByZero s = .ok t) : Writes may s t := by
  obtain ⟨u, hpush, h⟩ := Res.bind_eq_ok.1 h
  cases h
  exact (push16_writes hpush).trans (.jump hpc ..)

theorem divide_writes {rrd : WPair} {rs : WReg} (hpc : may .pc) (h : divide rrd rs s = .ok t) : Writes may s t := by
  simp only [divide, Res.bind_eq_ok] at h
  obtain ⟨n, -, d, -, h⟩ := h
  split_ifs at h
  · exact takeDivideByZero_writes hpc h
  · cases h; exact .setFlags ..
  · obtain ⟨u, hhigh, h⟩ := Res.bind_eq_ok.1 h
    obtain ⟨w, hlow, h⟩ := Res.bind_eq_ok.1 h
    cases h
    exact (writeReg_writes hhigh).trans ((writeReg_writes hlow).trans (.setFlags ..))

theorem divideStep_writes {rrh rrl : WPair} {rrs : RegPair} (hhid : may .divwsHidden)
    (h : divideStep rrh rrl rrs s = .ok t) : Writes may s t := by
  simp only [divideStep, Res.bind_eq_ok] at h
  obtain ⟨a, -, b, -, v, -, u, hhigh, w, hlow, h⟩ := h
  cases h
  exact (writePair_writes hhigh).trans
    ((writePair_writes hlow).trans ((Writes.setFlags ..).trans (.one (.divwsHidden hhid ..))))

theorem twoBit_writes {g : Bool → Bool → Bool} {src : BitSource} {bd bs : BitVec 3} {rd rs : WReg}
    (h : twoBit g src bd rd bs rs s = .ok t) : Writes may s t := by
  simp only [twoBit, Res.bind_eq_ok] at h
  obtain ⟨v, -, d, -, h⟩ := h
  exact writeReg_writes h

theorem oneBit_writes {g : Bool → Bool} {b : BitVec 3} {rd : WReg} (h : oneBit g b rd s = .ok t) :
    Writes may s t := by
  obtain ⟨d, -, h⟩ := Res.bind_eq_ok.1 h
  exact writeReg_writes h

theorem bitTestSet_writes {f : BtsetForm} (h : bitTestSet f s = .ok t) : Writes may s t := by
  cases f with
  | reg b rd =>
    simp only [bitTestSet, Res.bind_eq_ok] at h
    obtain ⟨v, -, u, hstore, h⟩ := h
    cases h
    exact (writeReg_writes hstore).trans (.setFlags ..)
  | mem b rr =>
    obtain ⟨a, -, h⟩ := Res.bind_eq_ok.1 h
    cases h
    exact (Writes.setMemByte ..).trans (.setFlags ..)

theorem exchange_writes {rd rs : Reg} (h : exchange rd rs s = .ok t) : Writes may s t := by
  simp only [exchange, Res.bind_eq_ok] at h
  obtain ⟨a, -, b, -, u, hfirst, hsecond⟩ := h
  exact (writeReg_writes hfirst).trans (writeReg_writes hsecond)

theorem signExtendPair_writes {rr : RegPair} (h : signExtendPair rr s = .ok t) : Writes may s t := by
  obtain ⟨l, -, h⟩ := Res.bind_eq_ok.1 h
  exact writeReg_writes h

/-! ### Control transfers -/

section
variable (hpc : may .pc)
include hpc

theorem jumpIf_writes (cc : BitVec 4) (nn : Word) (s : State) : Writes may s (jumpIf cc nn s) := .jumpWhen hpc ..

theorem jumpRelIf_writes (cc : BitVec 4) (n : Byte) (s : State) : Writes may s (jumpRelIf cc n s) :=
  .jumpWhen hpc ..

theorem bitJump_writes {want : Bool} {b : BitVec 3} {rd : WReg} {n : Byte} (h : bitJump want b rd n s = .ok t) :
    Writes may s t := by
  obtain ⟨v, -, h⟩ := Res.bind_eq_ok.1 h
  cases h
  exact .jumpWhen hpc ..

theorem jumpPair_writes {rr : RegPair} (h : jumpPair rr s = .ok t) : Writes may s t := by
  obtain ⟨a, -, h⟩ := Res.bind_eq_ok.1 h
  cases h
  exact .jump hpc ..

theorem callNear_writes {f : CallForm} (h : callNear f s = .ok t) : Writes may s t := by
  simp only [callNear, Res.bind_eq_ok] at h
  obtain ⟨a, -, u, hpush, h⟩ := h
  cases h
  exact (push16_writes hpush).trans (.jump hpc ..)

theorem returnNear_writes (h : returnNear s = .ok t) : Writes may s t := by
  obtain ⟨⟨a, u⟩, hpop, h⟩ := Res.bind_eq_ok.1 h
  cases h
  exact (pop16_writes hpop).trans (.jump hpc ..)

theorem decJump_writes {r : WReg} {n : Byte} (h : decJump r n s = .ok t) : Writes may s t := by
  simp only [decJump, Res.bind_eq_ok] at h
  obtain ⟨v, -, u, hstore, h⟩ := h
  cases h
  exact (writeReg_writes hstore).trans (.jumpWhen hpc ..)

theorem decJumpWord_writes {rr : RegPair} {n : Byte} (h : decJumpWord rr n s = .ok t) : Writes may s t := by
  simp only [decJumpWord, Res.bind_eq_ok] at h
  obtain ⟨v, -, u, hstore, h⟩ := h
  cases h
  exact (writePair_writes hstore).trans (.jumpWhen hpc ..)

theorem compareJump_writes {whenEqual : Bool} {rd : WReg} {rrs : WPair} {n : Byte}
    (h : compareJump whenEqual rd rrs n s = .ok t) : Writes may s t := by
  simp only [compareJump, Res.bind_eq_ok] at h
  obtain ⟨a, -, d, -, h⟩ := h
  split at h
  · cases h; exact .jump hpc ..
  · exact writePair_writes h

variable (hcsr : may .csr)
include hcsr

theorem jumpFar_writes {f : FarForm} (h : jumpFar f s = .ok t) : Writes may s t := by
  obtain ⟨g, -, h⟩ := Res.bind_eq_ok.1 h
  cases h
  exact (Writes.jump hpc ..).trans (.one (.csr hcsr ..))

theorem callFar_writes {f : FarForm} (h : callFar f s = .ok t) : Writes may s t := by
  simp only [callFar, Res.bind_eq_ok] at h
  obtain ⟨g, -, u, hpc', w, hcsr', h⟩ := h
  cases h
  exact (push16_writes hpc').trans
    ((push8_writes hcsr').trans ((Writes.jump hpc ..).trans (.one (.csr hcsr ..))))

theorem returnFar_writes (h : returnFar s = .ok t) : Writes may s t := by
  simp only [returnFar, Res.bind_eq_ok] at h
  obtain ⟨⟨c, u⟩, hpop8, ⟨a, w⟩, hpop16, h⟩ := h
  cases h
  exact (pop8_writes hpop8).trans
    ((Writes.one (.csr hcsr ..)).trans ((pop16_writes hpop16).trans (.jump hpc ..)))

omit hpc in
theorem popCsr_writes (h : popCsr s = .ok t) : Writes may s t := by
  unfold popCsr at h
  split at h
  · obtain ⟨⟨c, u⟩, hpop, h⟩ := Res.bind_eq_ok.1 h
    cases h
    exact (pop8_writes hpop).trans (.one (.csr hcsr ..))
  · cases h; exact .refl

theorem returnFromInterrupt_writes (h : returnFromInterrupt s = .ok t) : Writes may s t := by
  simp only [returnFromInterrupt, Res.bind_eq_ok] at h
  obtain ⟨⟨f, u⟩, hflagr, w, hpopCsr, ⟨a, x⟩, hpop16, h⟩ := h
  cases h
  exact (pop8_writes hflagr).trans ((Writes.one (.flagr ..)).trans
    ((popCsr_writes hcsr hpopCsr).trans ((pop16_writes hpop16).trans
      ((Writes.jump hpc ..).trans (.one (.ien ..))))))

theorem takeInterrupt_writes {q : IrqRequest} (hrun : may .runState) (h : takeInterrupt q s = .ok t) :
    Writes may s t := by
  simp only [takeInterrupt, pushCsr, Res.bind_eq_ok] at h
  obtain ⟨u, hpush, v, hpushCsr, w, hflagr, h⟩ := h
  cases h
  have hframe : Writes may u v := by
    split at hpushCsr
    · exact push8_writes hpushCsr
    · cases hpushCsr; exact .refl
  exact (push16_writes hpush).trans (hframe.trans ((push8_writes hflagr).trans
    ((Writes.one (.ien ..)).trans (.enter hpc hcsr hrun ..))))

end

end Sys2Proof.Machine
end

section
/-! SUPPORT. Every instruction and every step as a chain of writes, and what follows for all of them: the storage
stays canonical, the device parameters stay, the control state changes only by its own instructions. -/

namespace Sys2Proof.Machine

/-! ### Instructions -/

/-- The control parts that an instruction may write. -/
def Instr.controls (i : Instr) : ControlPart → Prop
  | .pc => Instr.writesPc i = true
  | .csr => Instr.writesCsr i = true
  | .runState => Instr.writesRunState i = true
  | .divwsHidden => ∃ h l v, i = .divws h l v

variable {s t : State}

theorem Writes.of_next {may : ControlPart → Prop} {u : State} (hw : Writes may s u)
    (h : (.next u : Out) = .next t) : Writes may s t := by
  cases h
  exact hw

/-- An instruction makes writes, to control parts only where it may. -/
theorem exec_writes {i : Instr} (h : exec i s = .next t) : Writes (Instr.controls i) s t := by
  cases i
  case or | and | sbc | adc | add | sub | xor | tcm | cp | tm => exact aluByte_writes (Res.outcome_eq_next.1 h)
  case orw | andw | sbcw | adcw | addw | subw | xorw | tcmw | cpw | tmw =>
    exact aluWord_writes (Res.outcome_eq_next.1 h)
  case ld => exact loadByte_writes (Res.outcome_eq_next.1 h)
  case ldw => exact loadWord_writes (Res.outcome_eq_next.1 h)
  case ldpp | lddp | ldpd | lddd => exact copyByte_writes (Res.outcome_eq_next.1 h)
  case inc | dec | cpl | swap | da | rlc | rrc | rol | ror | sra =>
    exact unaryByte_writes (Res.outcome_eq_next.1 h)
  case clr => exact clearByte_writes (Res.outcome_eq_next.1 h)
  case incw | decw | rlcw | rrcw | sraw => exact unaryWord_writes (Res.outcome_eq_next.1 h)
  case push | pushu => exact pushByteOn_writes (Res.outcome_eq_next.1 h)
  case pushw | pushuw => exact pushWordOn_writes (Res.outcome_eq_next.1 h)
  case pop | popu => exact popByteFrom_writes (Res.outcome_eq_next.1 h)
  case popw | popuw => exact popWordFrom_writes (Res.outcome_eq_next.1 h)
  case pea | peau => exact pushAddrOn_writes (Res.outcome_eq_next.1 h)
  case link | linku => exact linkOn_writes (Res.outcome_eq_next.1 h)
  case unlink | unlinku => exact unlinkFrom_writes (Res.outcome_eq_next.1 h)
  case mul => exact multiply_writes (Res.outcome_eq_next.1 h)
  case div => exact divide_writes rfl (Res.outcome_eq_next.1 h)
  case divws => exact divideStep_writes ⟨_, _, _, rfl⟩ (Res.outcome_eq_next.1 h)
  case band | bor | bxor | bld => exact twoBit_writes (Res.outcome_eq_next.1 h)
  case btset => exact bitTestSet_writes (Res.outcome_eq_next.1 h)
  case bset | bres | bcpl => exact oneBit_writes (Res.outcome_eq_next.1 h)
  case btjf | btjt => exact bitJump_writes rfl (Res.outcome_eq_next.1 h)
  case jpf | jplt | jple | jpule | jpov | jpmi | jpeq | jpult | jpt | jpge | jpgt | jpugt | jpnov | jppl | jpne
      | jpuge => exact .of_next (jumpIf_writes (by rfl) ..) h
  case jrf | jrlt | jrle | jrule | jrov | jrmi | jreq | jrult | jrt | jrge | jrgt | jrugt | jrnov | jrpl | jrne
      | jruge => exact .of_next (jumpRelIf_writes (by rfl) ..) h
  case jp => exact jumpPair_writes rfl (Res.outcome_eq_next.1 h)
  case jps => exact jumpFar_writes rfl rfl (Res.outcome_eq_next.1 h)
  case call => exact callNear_writes rfl (Res.outcome_eq_next.1 h)
  case calls => exact callFar_writes rfl rfl (Res.outcome_eq_next.1 h)
  case ret => exact returnNear_writes rfl (Res.outcome_eq_next.1 h)
  case rets => exact returnFar_writes rfl rfl (Res.outcome_eq_next.1 h)
  case iret => exact returnFromInterrupt_writes rfl rfl (Res.outcome_eq_next.1 h)
  case djnz => exact decJump_writes rfl (Res.outcome_eq_next.1 h)
  case dwjnz => exact decJumpWord_writes rfl (Res.outcome_eq_next.1 h)
  case cpjfi | cpjti => exact compareJump_writes rfl (Res.outcome_eq_next.1 h)
  case srp | srp0 | srp1 => exact .of_next (.one (.window ..)) h
  case spp => exact .of_next (.one (.page ..)) h
  case xch => exact exchange_writes (Res.outcome_eq_next.1 h)
  case ext => exact signExtendPair_writes (Res.outcome_eq_next.1 h)
  case ei | di => exact .of_next (.one (.ien ..)) h
  case scf | rcf | ccf | spm | sdm => exact .of_next (.one (.flagr ..)) h
  case nop => exact .of_next .refl h
  case wfi | halt => exact .of_next (.one (.runState (by rfl) ..)) h
  case etrap | eret => cases h

/-- Settles O23: none of the writes of an instruction reaches a control part that is not its own, ENCSR, the
inputs or the counter of free values. -/
theorem controlStateChangesOnlyByItsInstructions : Obligations.ControlStateChangesOnlyByItsInstructions := by
  intro i s t h
  have hw := exec_writes h
  refine ⟨fun hn => ?_, fun hn => ?_, fun hn => ?_, fun hn => ?_, ?_, ?_, ?_⟩
  · refine hw.keeps State.csr fun u v hstep => ?_
    cases hstep with
    | csr hmay => exact absurd (hn.symm.trans hmay) (by decide)
    | _ => simp
  · refine hw.keeps State.runState fun u v hstep => ?_
    cases hstep with
    | runState hmay => exact absurd (hn.symm.trans hmay) (by decide)
    | _ => simp
  · refine hw.keeps State.pc fun u v hstep => ?_
    cases hstep with
    | pc hmay => exact absurd (hn.symm.trans hmay) (by decide)
    | _ => simp
  · refine hw.keeps State.divwsHidden fun u v hstep => ?_
    cases hstep with
    | divwsHidden hmay =>
      obtain ⟨a, b, c, e⟩ := hmay
      exact absurd e (hn a b c)
    | _ => simp
  · exact hw.keeps State.encsr fun u v hstep => by cases hstep <;> simp
  · exact hw.keeps State.inputs fun u v hstep => by cases hstep <;> simp
  · exact hw.keeps State.fresh fun u v hstep => by cases hstep <;> simp

/-! ### Steps -/

/-- The four things that a step can be: a reset, an interrupt entry, an instruction, or a wait. -/
theorem step_cases (h : step s = .next t) :
    (∃ p, t = applyReset p (cutShort p.landed s.boundary.irq s.answered)) ∨
    (∃ q, takeInterrupt q s.answered = .ok t) ∨
    (∃ i n, exec i (s.answered.advance n) = .next t) ∨
    t = s.answered := by
  simp only [step, stepAt, proceed] at h
  split at h
  · cases h; exact .inl ⟨_, rfl⟩
  · split at h
    · exact .inr (.inl ⟨_, Res.outcome_eq_next.1 h⟩)
    · split at h
      · unfold runInstruction at h
        split at h
        · exact .inr (.inr (.inl ⟨_, _, h⟩))
        · cases h
      · cases h; exact .inr (.inr (.inr rfl))

/-- Settles O8: a reset takes canonical storage from its parameters, and everything else that a step does is a
chain of writes, each of which keeps the canonical form. -/
theorem stepKeepsStorageCanonical : Obligations.StepKeepsStorageCanonical := by
  intro s t hs h
  have hanswered : s.answered.wf = true := hs
  rcases step_cases h with ⟨p, rfl⟩ | ⟨q, htaken⟩ | ⟨i, n, hexec⟩ | rfl
  · exact State.wf_applyReset p (State.wf_cutShort _ _ hanswered)
  · exact (takeInterrupt_writes (may := fun _ => True) trivial trivial trivial htaken).wf hanswered
  · exact (exec_writes hexec).wf hs
  · exact hanswered

/-- Settles O9. -/
theorem resetStorageIsCanonical : Obligations.ResetStorageIsCanonical := rfl

/-- The device parameters (92_eei_decisions.md D3, D5, D6). -/
def State.device (s : State) : Bool × Bool × List (Word × PhysAddr) × List MemRegion :=
  (s.sspInRegfile, s.uspInRegfile, s.dataMap, s.memRegions)

theorem Writes.device {may : ControlPart → Prop} (hw : Writes may s t) : t.device = s.device :=
  hw.keeps State.device fun u v hstep => by cases hstep <;> simp [State.device]

theorem step_keeps_device (h : step s = .next t) : t.device = s.device := by
  rcases step_cases h with ⟨p, rfl⟩ | ⟨q, htaken⟩ | ⟨i, n, hexec⟩ | rfl
  · rfl
  · exact (takeInterrupt_writes (may := fun _ => True) trivial trivial trivial htaken).device
  · exact (exec_writes hexec).device
  · rfl

/-- Settles O10: no write and no reset reaches the device parameters. -/
theorem stepKeepsDeviceParameters : Obligations.StepKeepsDeviceParameters := by
  intro s t h
  simpa [State.device] using step_keeps_device h

end Sys2Proof.Machine
end

section
/-! SUPPORT. The laws of registers and flags: where a working register lies, what a register write and a flag update
reach, what the condition codes say. -/

namespace Sys2Proof.Machine

/-! ### Working registers (10_state.md R24) -/

theorem toNat_append_eq_add {m n : Nat} (x : BitVec m) (y : BitVec n) :
    (x ++ y).toNat = 2 ^ n * x.toNat + y.toNat := by
  rw [BitVec.toNat_append, ← Nat.shiftLeft_add_eq_or_of_lt y.isLt, Nat.shiftLeft_eq, Nat.mul_comm]

theorem State.addr_wregAddr (s : State) (n : WReg) : s.addr (wregAddr n) = s.working n := by
  have hhi : ∀ n : WReg, isGroupD (wregAddr n) = true := by decide
  have hlo : ∀ n : WReg, loNib (wregAddr n) = n := by decide
  rw [State.addr, if_pos (hhi n), hlo n]

theorem State.working_toNat (s : State) (n : WReg) : (s.working n).toNat =
    if s.twin = false then 16 * (s.rp0.toNat / 2) + n.toNat
    else if n.toNat < 8 then 8 * s.rp0.toNat + n.toNat
    else 8 * s.rp1.toNat + (n.toNat - 8) := by
  have hhalf : ∀ n : WReg, n.getLsbD 3 = decide (8 ≤ n.toNat) := by decide
  have hn := n.isLt
  unfold State.working
  cases s.twin
  · refine (toNat_append_eq_add (s.rp0.extractLsb' 1 4) n).trans ?_
    have hgroup := s.rp0.isLt
    simp only [BitVec.extractLsb'_toNat, Nat.shiftRight_eq_div_pow, if_true]
    omega
  · refine (toNat_append_eq_add (if n.getLsbD 3 then s.rp1 else s.rp0) (n.extractLsb' 0 3)).trans ?_
    rw [hhalf n]
    by_cases hlow : n.toNat < 8
    · simp only [BitVec.extractLsb'_toNat, Nat.shiftRight_eq_div_pow, hlow, show ¬8 ≤ n.toNat by omega, if_true,
        decide_false, Bool.true_eq_false, Bool.false_eq_true, if_false]
      omega
    · simp only [BitVec.extractLsb'_toNat, Nat.shiftRight_eq_div_pow, hlow, show 8 ≤ n.toNat by omega, if_true,
        decide_true, Bool.true_eq_false, if_false]
      omega

/-- Settles O16: the register address of a working register resolves to the window cell, and the access is refused
exactly where that lies in group D. -/
theorem workingRegistersLieInTheWindow : Obligations.WorkingRegistersLieInTheWindow := by
  intro s n p hp
  have hname : ∀ n : WReg, 0xD0 + n.zeroExtend 8 = wregAddr n := by decide
  have haddr : s.addr (wregAddr n) = p := by
    rw [State.addr_wregAddr]
    exact BitVec.eq_of_toNat_eq ((State.working_toNat s n).trans hp.symm)
  rw [hname n]
  constructor
  · intro hD
    have hstop : s.reachable (wregAddr n) = false := by
      simp [State.reachable, State.blocked, isGroupD, haddr, hD]
    exact ⟨readReg_stop hstop, fun v => writeReg_stop v hstop⟩
  · intro hD
    have hgo : s.reachable (wregAddr n) = true := by
      simp [State.reachable, State.blocked, isGroupD, haddr, hD]
    refine ⟨?_, fun v => ?_⟩
    · rw [readReg_eq hgo, State.reg, haddr]
    · rw [writeReg_eq v hgo, State.setReg, haddr]

/-! ### Register writes (10_state.md R22, R25 to R27) -/

/-- The one address of a system register; none for the roles that many addresses have. -/
def RegRole.address : RegRole → Option Byte
  | .paged | .plain => none
  | .cicr => some 230
  | .flagr => some 231
  | .rp0 => some 232
  | .rp1 => some 233
  | .ppr => some 234
  | .uspHigh => some 236
  | .uspLow => some 237
  | .sspHigh => some 238
  | .sspLow => some 239

theorem regRole_address : ∀ p : Byte, regRole p = .paged ∨ regRole p = .plain ∨ (regRole p).address = some p := by
  decide

theorem regRole_eq_paged_iff : ∀ p : Byte, regRole p = .paged ↔ hiNib p = 0xF#4 := by decide

theorem hiNib_eq_F_iff : ∀ p : Byte, hiNib p = 0xF#4 ↔ 240 ≤ p.toNat := by decide

/-- Two addresses of one system register are one address. -/
theorem eq_of_regRole_eq {p q : Byte} (h : regRole p = regRole q) (hpaged : regRole q ≠ .paged)
    (hplain : regRole q ≠ .plain) : p = q := by
  rcases regRole_address p with hp | hp | hp
  · exact absurd (h.symm.trans hp) hpaged
  · exact absurd (h.symm.trans hp) hplain
  rcases regRole_address q with hq | hq | hq
  · exact absurd hq hpaged
  · exact absurd hq hplain
  rw [h, hq] at hp
  exact (Option.some.inj hp).symm

section
variable (s : State) {p : Byte} (v : Byte)

theorem State.setCell_pages (h : regRole p ≠ .paged) : (s.setCell p v).pages = s.pages := by
  unfold State.setCell
  split <;> first | rfl | contradiction

theorem State.setCell_phys (h : regRole p ≠ .plain) : (s.setCell p v).phys = s.phys := by
  unfold State.setCell
  split <;> first | rfl | contradiction

theorem State.setCell_cicr (h : regRole p ≠ .cicr) : (s.setCell p v).cicr = s.cicr := by
  unfold State.setCell
  split <;> first | rfl | contradiction

theorem State.setCell_flagr (h : regRole p ≠ .flagr) : (s.setCell p v).flagr = s.flagr := by
  unfold State.setCell
  split <;> first | rfl | contradiction

theorem State.setCell_rp0 (h : regRole p ≠ .rp0) : (s.setCell p v).rp0 = s.rp0 := by
  unfold State.setCell
  split <;> first | rfl | contradiction

theorem State.setCell_rp1 (h : regRole p ≠ .rp1) : (s.setCell p v).rp1 = s.rp1 := by
  unfold State.setCell
  split <;> first | rfl | contradiction

theorem State.setCell_twin (h0 : regRole p ≠ .rp0) (h1 : regRole p ≠ .rp1) : (s.setCell p v).twin = s.twin := by
  unfold State.setCell
  split <;> first | rfl | contradiction

theorem State.setCell_ppr (h : regRole p ≠ .ppr) : (s.setCell p v).ppr = s.ppr := by
  unfold State.setCell
  split <;> first | rfl | contradiction

theorem State.setCell_usp_hi (h : regRole p ≠ .uspHigh) : (s.setCell p v).usp.hi = s.usp.hi := by
  unfold State.setCell
  split <;> first | rfl | contradiction | exact Word.hi_word ..

theorem State.setCell_usp_lo (h : regRole p ≠ .uspLow) : (s.setCell p v).usp.lo = s.usp.lo := by
  unfold State.setCell
  split <;> first | rfl | contradiction | exact Word.lo_word ..

theorem State.setCell_ssp_hi (h : regRole p ≠ .sspHigh) : (s.setCell p v).ssp.hi = s.ssp.hi := by
  unfold State.setCell
  split <;> first | rfl | contradiction | exact Word.hi_word ..

theorem State.setCell_ssp_lo (h : regRole p ≠ .sspLow) : (s.setCell p v).ssp.lo = s.ssp.lo := by
  unfold State.setCell
  split <;> first | rfl | contradiction | exact Word.lo_word ..

end

/-- The image of a register pointer drops the two lowest bits of the byte written to it (10_state.md R26). -/
theorem rpImage_of_byte : ∀ v : Byte, rpImage (v.extractLsb' 3 5) (v.getLsbD 2) = v &&& 0xFC := by decide

theorem State.cell_setCell_same (s : State) (p v : Byte) :
    (s.setCell p v).cell p = if p = 232 ∨ p = 233 then v &&& 0xFC else v := by
  split
  · rcases ‹p = 232 ∨ p = 233› with rfl | rfl <;> exact rpImage_of_byte v
  · have hrp : p ≠ 232 ∧ p ≠ 233 := not_or.1 ‹_›
    have haddr := regRole_address p
    unfold State.cell State.setCell
    cases hp : regRole p
    case rp0 => exact absurd (by simpa [hp, RegRole.address, eq_comm] using haddr) hrp.1
    case rp1 => exact absurd (by simpa [hp, RegRole.address, eq_comm] using haddr) hrp.2
    case paged => exact Cells.read_write_same ..
    case plain => exact Cells.read_write_same ..
    case uspHigh | sspHigh => exact Word.hi_word ..
    case uspLow | sspLow => exact Word.lo_word ..
    all_goals rfl

/-- A write to a register leaves every register of the fixed part of the register file alone, but the register itself
and the register pointer that shares its window bit. -/
theorem State.cell_setCell_other (s : State) {p q : Byte} (v : Byte) (hq : regRole q ≠ .paged) (hne : p ≠ q)
    (hrp : ¬((p = 232 ∨ p = 233) ∧ (q = 232 ∨ q = 233))) : (s.setCell p v).cell q = s.cell q := by
  have hrole : regRole q ≠ .plain → regRole p ≠ regRole q := fun hplain e => hne (eq_of_regRole_eq e hq hplain)
  have at232 : ∀ r : Byte, regRole r = .rp0 → r = 232 := by decide
  have at233 : ∀ r : Byte, regRole r = .rp1 → r = 233 := by decide
  unfold State.cell
  cases hr : regRole q <;> simp only [hr, ne_eq, reduceCtorEq, not_false_eq_true, forall_const] at hrole ⊢
  case paged => exact absurd hr hq
  case cicr => exact s.setCell_cicr v hrole
  case flagr => exact s.setCell_flagr v hrole
  case rp0 =>
    have hother : regRole p ≠ .rp1 := fun e => hrp ⟨.inr (at233 p e), .inl (at232 q hr)⟩
    rw [s.setCell_rp0 v hrole, s.setCell_twin v hrole hother]
  case rp1 =>
    have hother : regRole p ≠ .rp0 := fun e => hrp ⟨.inl (at232 p e), .inr (at233 q hr)⟩
    rw [s.setCell_rp1 v hrole, s.setCell_twin v hother hrole]
  case ppr => exact s.setCell_ppr v hrole
  case uspHigh => exact s.setCell_usp_hi v hrole
  case uspLow => exact s.setCell_usp_lo v hrole
  case sspHigh => exact s.setCell_ssp_hi v hrole
  case sspLow => exact s.setCell_ssp_lo v hrole
  case plain =>
    by_cases hp : regRole p = .plain
    · simp only [State.setCell, hp]
      exact Cells.read_write_other _ _ fun e => hne (BitVec.eq_of_toNat_eq e).symm
    · rw [s.setCell_phys v hp]

/-! ### Places of registers -/

theorem slotsApart_iff {j k : Nat} : slotsApart j k = true ↔
    j ≠ k ∧ ¬((j = 232 ∨ j = 233) ∧ (k = 232 ∨ k = 233)) := by
  simp only [slotsApart, Bool.and_eq_true, bne_iff_ne, Bool.not_eq_true', ← Bool.not_eq_true, Bool.or_eq_true,
    beq_iff_eq]

/-- The place of a register outside group F is its address. -/
theorem State.slot_eq_toNat (s : State) {p : Byte} (h : regRole p ≠ .paged) : s.slot p = p.toNat := by
  rw [State.slot, if_neg (mt (regRole_eq_paged_iff p).2 h)]

theorem State.slot_of_paged (s : State) {p : Byte} (h : regRole p = .paged) : s.slot p = 256 + s.pageKey p := by
  rw [State.slot, if_pos ((regRole_eq_paged_iff p).1 h)]

theorem State.slot_eq_iff (s : State) (p : Byte) {k : Nat} (h : k < 240) : s.slot p = k ↔ p.toNat = k := by
  by_cases hp : regRole p = .paged
  · have := (hiNib_eq_F_iff p).1 ((regRole_eq_paged_iff p).1 hp)
    rw [s.slot_of_paged hp]
    omega
  · rw [s.slot_eq_toNat hp]

/-- The register in the place of an address is the register at the address. -/
theorem State.slotByte_slot (s : State) (p : Byte) : s.slotByte (s.slot p) = s.cell p := by
  by_cases hp : regRole p = .paged
  · simp [s.slot_of_paged hp, State.slotByte, State.cell, hp]
  · have hlt := p.isLt
    simp [s.slot_eq_toNat hp, State.slotByte, show ¬256 ≤ p.toNat by omega]

/-- A write to a register does not move its place. -/
theorem State.slot_setCell_same (s : State) (p v : Byte) : (s.setCell p v).slot p = s.slot p := by
  by_cases hp : regRole p = .paged
  · rw [State.slot_of_paged _ hp, State.slot_of_paged _ hp, State.pageKey, s.setCell_ppr v (by simp [hp]),
      State.pageKey]
  · rw [State.slot_eq_toNat _ hp, State.slot_eq_toNat _ hp]

theorem State.slotByte_setCell_same (s : State) (p v : Byte) :
    (s.setCell p v).slotByte (s.slot p) = if s.slot p = 232 ∨ s.slot p = 233 then v &&& 0xFC else v := by
  have h232 : s.slot p = 232 ↔ p = 232 := by rw [s.slot_eq_iff p (by decide), BitVec.toNat_eq]; rfl
  have h233 : s.slot p = 233 ↔ p = 233 := by rw [s.slot_eq_iff p (by decide), BitVec.toNat_eq]; rfl
  rw [← s.slot_setCell_same p v, State.slotByte_slot, State.cell_setCell_same, s.slot_setCell_same p v]
  simp only [h232, h233]

theorem State.slotByte_setCell_other (s : State) {p : Byte} (v : Byte) {k : Nat} (hk : isSlot k = true)
    (hapart : slotsApart (s.slot p) k = true) : (s.setCell p v).slotByte k = s.slotByte k := by
  obtain ⟨hne, hrp⟩ := slotsApart_iff.1 hapart
  unfold State.slotByte
  split
  · by_cases hp : regRole p = .paged
    · rw [s.slot_of_paged hp] at hne
      simp only [State.setCell, hp]
      exact Cells.read_write_other _ _ (by omega)
    · rw [s.setCell_pages v hp]
  · have hlt : k < 240 := by simp [isSlot] at hk; omega
    have hto : (BitVec.ofNat 8 k).toNat = k := by rw [BitVec.toNat_ofNat]; omega
    have hq : regRole (BitVec.ofNat 8 k) ≠ .paged := by
      rw [ne_eq, regRole_eq_paged_iff, hiNib_eq_F_iff, hto]
      omega
    refine s.cell_setCell_other v hq (fun e => hne ?_) (fun e => hrp ?_)
    · rw [s.slot_eq_iff p hlt, e, hto]
    · rw [s.slot_eq_iff p (by decide), s.slot_eq_iff p (by decide)]
      simpa [BitVec.toNat_eq, hto] using e

/-- Settles O17: a write goes to the one cell that its address resolves to. -/
theorem registerWriteReachesOneRegister : Obligations.RegisterWriteReachesOneRegister := by
  rintro s t a v j rfl rfl
  refine ⟨s.slotByte_setCell_same (s.addr a) v, fun k hk hapart => s.slotByte_setCell_other v hk hapart, ?_⟩
  unfold State.setReg State.setCell
  cases regRole (s.addr a) <;> rfl

/-! ### Flags (10_state.md R31) -/

theorem getLsbD_setBit (v : Byte) {i j : Nat} (x : Bool) (hj : j < 8) :
    (setBit v i x).getLsbD j = if j = i then x else v.getLsbD j := by
  by_cases h : j = i
  · subst h
    cases x <;> simp [setBit, hj]
  · have hother : (1#8 <<< i).getLsbD j = false := (BitVec.getLsbD_twoPow i j).trans (by simp [Ne.symm h])
    cases x <;>
      simp only [setBit, BitVec.getLsbD_or, BitVec.getLsbD_and, BitVec.getLsbD_not, hother, reduceIte, h] <;> simp [hj]

theorem flagBit_lt (f : FlagName) : flagBit f < 8 := by cases f <;> decide

theorem getLsbD_putFlag (f : FlagName) (x : Option Bool) (r : Byte) {j : Nat} (hj : j < 8) :
    (putFlag f x r).getLsbD j = if j = flagBit f then x.getD (r.getLsbD j) else r.getLsbD j := by
  cases x with
  | none => simp [putFlag]
  | some b => exact getLsbD_setBit r b hj

theorem FlagUpdate.getLsbD_apply_flag (u : FlagUpdate) (r : Byte) (f : FlagName) :
    (u.apply r).getLsbD (flagBit f) = (u.get f).getD (r.getLsbD (flagBit f)) := by
  simp only [FlagUpdate.apply, getLsbD_putFlag _ _ _ (flagBit_lt f)]
  cases f <;> rfl

theorem FlagUpdate.getLsbD_apply_low (u : FlagUpdate) (r : Byte) {j : Nat} (hj : j < 2) :
    (u.apply r).getLsbD j = r.getLsbD j := by
  have hflag : ∀ f, j ≠ flagBit f := fun f => by cases f <;> simp only [flagBit] <;> omega
  have hj8 : j < 8 := by omega
  simp only [FlagUpdate.apply, getLsbD_putFlag _ _ _ hj8, hflag, if_false]

@[simp] theorem State.flag_setFlags (s : State) (u : FlagUpdate) (f : FlagName) :
    (s.setFlags u).flag f = (u.get f).getD (s.flag f) := u.getLsbD_apply_flag s.flagr f

/-- Settles O21: an update writes the bits of its flags one by one. -/
theorem flagUpdateWritesItsFlags : Obligations.FlagUpdateWritesItsFlags := fun s u =>
  ⟨s.flag_setFlags u, u.getLsbD_apply_low s.flagr (by decide), u.getLsbD_apply_low s.flagr (by decide), rfl⟩

/-! ### Condition codes (10_state.md R33) -/

/-- Settles O50: the negation follows from the table, code by code. -/
theorem conditionCodes : Obligations.ConditionCodes := by
  rintro s c z sg v rfl rfl rfl rfl
  have hge : ∀ x y : Bool, (!(x ^^ y)) = (x == y) := by decide
  have hgt : ∀ w x y : Bool, (!(w || (x ^^ y))) = (!w && (x == y)) := by decide
  refine ⟨rfl, rfl, rfl, rfl, rfl, rfl, rfl, rfl, rfl, hge _ _, hgt _ _ _, rfl, rfl, rfl, rfl, rfl, ?_⟩
  rintro ⟨⟨n, hn⟩⟩
  interval_cases n <;> simp [State.cond]

/-! ### Comparison (41_alu2.md R217) -/

theorem cmp8_carry (a b : Byte) : (cmp8 a b).flags.c = some (decide (a.toNat < b.toNat)) := rfl

theorem sub8_value_toNat (a b : Byte) :
    ((sub8 a b false).value.toNat : Int) = ((a.toNat : Int) - b.toNat) % 256 := by
  simp only [sub8, BitVec.toNat_ofInt, Bool.toNat_false]
  omega

theorem cmp8_zero (a b : Byte) : (cmp8 a b).flags.z = some (decide (a = b)) := by
  have hr := sub8_value_toNat a b
  have hz : (sub8 a b false).value = 0#8 ↔ a = b := by
    simp only [BitVec.toNat_eq, BitVec.toNat_ofNat]
    omega
  change some ((sub8 a b false).value == 0#8) = _
  simp only [beq_eq_decide, hz]

/-- The sign of a difference, corrected by its overflow, is the signed order: a matter of linear arithmetic for each
combination of the signs of the operands and of the difference. -/
theorem cmp8_less (a b : Byte) : ∃ sg ov, (cmp8 a b).flags.s = some sg ∧ (cmp8 a b).flags.v = some ov ∧
    (sg ^^ ov) = decide (a.toInt < b.toInt) := by
  refine ⟨_, _, rfl, rfl, ?_⟩
  have hr := sub8_value_toNat a b
  change ((sub8 a b false).value.msb ^^ (a.msb != b.msb && (sub8 a b false).value.msb != a.msb)) = _
  rw [BitVec.toInt_eq_msb_cond, BitVec.toInt_eq_msb_cond, BitVec.msb_eq_decide, BitVec.msb_eq_decide,
    BitVec.msb_eq_decide]
  by_cases ha : 128 ≤ a.toNat <;> by_cases hb : 128 ≤ b.toNat <;>
    by_cases hd : 128 ≤ (sub8 a b false).value.toNat <;> simp [ha, hb, hd] <;> omega

/-- Settles O31: after CP, C is the unsigned order, Z is equality and S, corrected by V, is the signed order. -/
theorem conditionsCompareAfterCp : Obligations.ConditionsCompareAfterCp := by
  intro s t a b ht
  obtain ⟨sg, ov, hs, hv, hlt⟩ := cmp8_less a b
  have hflagC : t.flag .c = decide (a.toNat < b.toNat) := by simp [ht, FlagUpdate.get, cmp8_carry]
  have hflagZ : t.flag .z = decide (a = b) := by simp [ht, FlagUpdate.get, cmp8_zero]
  have hsigned : (t.flag .s ^^ t.flag .v) = decide (a.toInt < b.toInt) := by simp [ht, FlagUpdate.get, hs, hv, hlt]
  have hint : a = b ↔ a.toInt = b.toInt := BitVec.toInt_inj.symm
  have hnat : a = b ↔ a.toNat = b.toNat := BitVec.toNat_eq
  refine ⟨?_, ?_, ?_, ?_, ?_, ?_, ?_, ?_, ?_, ?_⟩
  case refine_1 | refine_3 => simp [State.cond, hsigned]
  case refine_5 | refine_7 => simp [State.cond, hflagC]
  case refine_9 | refine_10 => simp [State.cond, hflagZ]
  case refine_2 =>
    change (t.flag .z || (t.flag .s ^^ t.flag .v)) = true ↔ _
    rw [hflagZ, hsigned, Bool.or_eq_true, decide_eq_true_iff, decide_eq_true_iff, hint]
    omega
  case refine_4 =>
    change (!(t.flag .z || (t.flag .s ^^ t.flag .v))) = true ↔ _
    rw [hflagZ, hsigned, Bool.not_eq_true', Bool.or_eq_false_iff, decide_eq_false_iff_not, decide_eq_false_iff_not,
      hint]
    omega
  case refine_6 =>
    change (t.flag .c || t.flag .z) = true ↔ _
    rw [hflagC, hflagZ, Bool.or_eq_true, decide_eq_true_iff, decide_eq_true_iff, hnat]
    omega
  case refine_8 =>
    change (!t.flag .c && !t.flag .z) = true ↔ _
    rw [hflagC, hflagZ, Bool.and_eq_true, Bool.not_eq_true', Bool.not_eq_true', decide_eq_false_iff_not,
      decide_eq_false_iff_not, hnat]
    omega

/-! ### Operand spaces (20_memory.md R61, R68, R70) -/

/-- Settles O20: SDM and SPM write bit 0 of FLAGR, which selects the space, and CSR is the upper part of a program
address. -/
theorem operandSpaceFollowsDp : Obligations.OperandSpaceFollowsDp := by
  refine fun s t => ⟨fun h => ?_, fun h => ?_, fun a => ?_⟩
  · cases h
    rw [State.opSpace, getLsbD_setBit _ _ (by decide)]
    rfl
  · cases h
    rw [State.opSpace, getLsbD_setBit _ _ (by decide)]
    rfl
  · exact toNat_append_eq_add t.csr a

end Sys2Proof.Machine
end

section
/-! SUPPORT. The registers that an instruction with at most one destination register leaves alone. -/

namespace Sys2Proof.Machine

/-! ### Writes that reach no other register -/

/-- From `s` to `t` every register stays but those at the addresses `as`, and, unless `flagsStay`, FLAGR. -/
structure KeepsRegisters (as : List Byte) (flagsStay : Bool) (s t : State) : Prop where
  slotByte_eq : ∀ k, isSlot k = true → (∀ a ∈ as, slotsApart (s.slot (s.addr a)) k = true) →
    (k ≠ 231 ∨ flagsStay = true) → t.slotByte k = s.slotByte k

theorem State.slotByte_jump (s : State) (a : Word) (k : Nat) : (s.jump a).slotByte k = s.slotByte k := rfl

theorem State.slotByte_setMemByte (s : State) (sp : Space) (a : Word) (v : Byte) (k : Nat) :
    (s.setMemByte sp a v).slotByte k = s.slotByte k := by
  unfold State.setMemByte
  split <;> rfl

theorem State.slotByte_flagr (s : State) (r : Byte) {k : Nat} (hk : isSlot k = true) (h : k ≠ 231) :
    State.slotByte { s with flagr := r } k = s.slotByte k :=
  s.slotByte_setCell_other (p := 231) r hk (slotsApart_iff.2 ⟨Ne.symm h, by simp [State.slot, hiNib]⟩)

section
variable {as : List Byte} {flagsStay : Bool} {s t : State}

theorem KeepsRegisters.of_slotByte_eq (h : t.slotByte = s.slotByte) : KeepsRegisters as flagsStay s t :=
  ⟨fun k _ _ _ => congrFun h k⟩

theorem KeepsRegisters.refl : KeepsRegisters as flagsStay s s := .of_slotByte_eq rfl

theorem KeepsRegisters.setReg (s : State) (a v : Byte) : KeepsRegisters [a] flagsStay s (s.setReg a v) :=
  ⟨fun _ hk hapart _ => s.slotByte_setCell_other v hk (hapart a List.mem_cons_self)⟩

theorem KeepsRegisters.setMemByte (s : State) (sp : Space) (a : Word) (v : Byte) :
    KeepsRegisters as flagsStay s (s.setMemByte sp a v) :=
  .of_slotByte_eq (funext (s.slotByte_setMemByte sp a v))

theorem KeepsRegisters.jump (h : KeepsRegisters as flagsStay s t) (a : Word) :
    KeepsRegisters as flagsStay s (t.jump a) :=
  ⟨fun k hk hapart hflags => (t.slotByte_jump a k).trans (h.slotByte_eq k hk hapart hflags)⟩

theorem KeepsRegisters.jumpWhen (h : KeepsRegisters as flagsStay s t) (c : Prop) [Decidable c] (a : Word) :
    KeepsRegisters as flagsStay s (if c then t.jump a else t) := by
  split
  · exact h.jump a
  · exact h

theorem KeepsRegisters.flagr (h : KeepsRegisters as false s t) (r : Byte) :
    KeepsRegisters as false s { t with flagr := r } := by
  refine ⟨fun k hk hapart hflags => ?_⟩
  rw [State.slotByte_flagr _ _ hk (by simpa using hflags), h.slotByte_eq k hk hapart hflags]

theorem writeReg_keeps {a v : Byte} (h : writeReg a v s = .ok t) : KeepsRegisters [a] flagsStay s t := by
  obtain ⟨-, rfl⟩ := writeReg_ok_iff.1 h
  exact .setReg ..

theorem store8_keeps {l : Loc} {v : Byte} (hl : Res.written (.ok l) = some as) (h : store8 l v s = .ok t) :
    KeepsRegisters as flagsStay s t := by
  cases l with
  | reg a => cases hl; exact writeReg_keeps h
  | mem a => cases h; exact .setMemByte ..

/-! ### The meanings with at most one destination register -/

theorem KByteForm.pre_eq_of_not_auto {f : KByteForm} (h : KByteForm.auto f = false) :
    KByteForm.pre f s = .ok s := by
  cases f <;> first | rfl | cases h

theorem KByteForm.post_eq_of_not_auto {f : KByteForm} (h : KByteForm.auto f = false) :
    KByteForm.post f s = .ok s := by
  cases f <;> first | rfl | cases h

theorem AluByteForm.pre_eq_of_not_auto {f : AluByteForm} (h : AluByteForm.auto f = false) :
    AluByteForm.pre f s = .ok s := by
  cases f
  case k => exact KByteForm.pre_eq_of_not_auto h
  all_goals rfl

theorem AluByteForm.post_eq_of_not_auto {f : AluByteForm} (h : AluByteForm.auto f = false) :
    AluByteForm.post f s = .ok s := by
  cases f
  case k => exact KByteForm.post_eq_of_not_auto h
  all_goals rfl

theorem LdForm.pre_eq_of_not_auto {f : LdForm} (h : LdForm.auto f = false) : LdForm.pre f s = .ok s := by
  cases f
  case k => exact KByteForm.pre_eq_of_not_auto h
  all_goals rfl

theorem LdForm.post_eq_of_not_auto {f : LdForm} (h : LdForm.auto f = false) : LdForm.post f s = .ok s := by
  cases f
  case k => exact KByteForm.post_eq_of_not_auto h
  case d7Load | d7Store => cases h
  all_goals rfl

theorem aluByte_keeps {op : AluOp} {f : AluByteForm} (ha : aluByteWritten op f s = some as)
    (h : aluByte op f s = .ok t) : KeepsRegisters as false s t := by
  unfold aluByteWritten at ha
  split_ifs at ha with hauto hstores
  all_goals
    have hauto' := eq_false_of_ne_true hauto
    simp only [aluByte, storeResult8, AluByteForm.pre_eq_of_not_auto hauto', AluByteForm.post_eq_of_not_auto hauto',
      Res.bind_ok, Res.bind_eq_ok, hstores, if_true] at h
    obtain ⟨l, hdst, v, -, d, -, u, hstore, h⟩ := h
    cases h
  · rw [hdst] at ha
    exact (store8_keeps ha hstore).flagr _
  · cases hstore
    exact KeepsRegisters.refl.flagr _

theorem loadByte_keeps {f : LdForm} (hauto : LdForm.auto f = false) (ha : Res.written (LdForm.dst f s) = some as)
    (h : loadByte f s = .ok t) : KeepsRegisters as flagsStay s t := by
  simp only [loadByte, LdForm.pre_eq_of_not_auto hauto, LdForm.post_eq_of_not_auto hauto, Res.bind_ok,
    Res.bind_eq_ok] at h
  obtain ⟨l, hdst, v, -, u, hstore, h⟩ := h
  cases h
  rw [hdst] at ha
  exact store8_keeps ha hstore

theorem unaryByte_keeps {g : State → Byte → ByteResult} {r : ByteTarget}
    (ha : Res.written (do .ok (.reg (← targetAddr r s))) = some as) (h : unaryByte g r s = .ok t) :
    KeepsRegisters as false s t := by
  simp only [unaryByte, Res.bind_eq_ok] at h
  obtain ⟨a, htarget, d, -, u, hstore, h⟩ := h
  cases h
  rw [htarget] at ha
  cases ha
  exact (writeReg_keeps hstore).flagr _

theorem clearByte_keeps {r : ByteTarget} (ha : Res.written (do .ok (.reg (← targetAddr r s))) = some as)
    (h : clearByte r s = .ok t) : KeepsRegisters as flagsStay s t := by
  obtain ⟨a, htarget, hstore⟩ := Res.bind_eq_ok.1 h
  rw [htarget] at ha
  cases ha
  exact writeReg_keeps hstore

theorem twoBit_keeps {g : Bool → Bool → Bool} {src : BitSource} {bd bs : BitVec 3} {rd rs : WReg}
    (h : twoBit g src bd rd bs rs s = .ok t) : KeepsRegisters [wregAddr rd] flagsStay s t := by
  simp only [twoBit, Res.bind_eq_ok] at h
  obtain ⟨v, -, d, -, hstore⟩ := h
  exact writeReg_keeps hstore

theorem oneBit_keeps {g : Bool → Bool} {b : BitVec 3} {rd : WReg} (h : oneBit g b rd s = .ok t) :
    KeepsRegisters [wregAddr rd] flagsStay s t := by
  obtain ⟨d, -, hstore⟩ := Res.bind_eq_ok.1 h
  exact writeReg_keeps hstore

theorem bitTestSet_reg_keeps {b : BitVec 3} {rd : WReg} (h : bitTestSet (.reg b rd) s = .ok t) :
    KeepsRegisters [wregAddr rd] false s t := by
  simp only [bitTestSet, Res.bind_eq_ok] at h
  obtain ⟨v, -, u, hstore, h⟩ := h
  cases h
  exact (writeReg_keeps hstore).flagr _

theorem bitTestSet_mem_keeps {b : BitVec 3} {rr : WPair} (h : bitTestSet (.mem b rr) s = .ok t) :
    KeepsRegisters as false s t := by
  obtain ⟨a, -, h⟩ := Res.bind_eq_ok.1 h
  cases h
  exact (KeepsRegisters.setMemByte ..).flagr _

theorem signExtendPair_keeps {rr : RegPair} (h : signExtendPair rr s = .ok t) :
    KeepsRegisters [rr] flagsStay s t := by
  obtain ⟨l, -, hstore⟩ := Res.bind_eq_ok.1 h
  exact writeReg_keeps hstore

theorem decJump_keeps {r : WReg} {n : Byte} (h : decJump r n s = .ok t) :
    KeepsRegisters [wregAddr r] flagsStay s t := by
  simp only [decJump, Res.bind_eq_ok] at h
  obtain ⟨v, -, u, hstore, h⟩ := h
  cases h
  exact (writeReg_keeps hstore).jumpWhen ..

theorem jumpIf_keeps (cc : BitVec 4) (nn : Word) : KeepsRegisters as flagsStay s (jumpIf cc nn s) :=
  KeepsRegisters.refl.jumpWhen ..

theorem jumpRelIf_keeps (cc : BitVec 4) (n : Byte) : KeepsRegisters as flagsStay s (jumpRelIf cc n s) :=
  KeepsRegisters.refl.jumpWhen ..

theorem bitJump_keeps {want : Bool} {b : BitVec 3} {rd : WReg} {n : Byte} (h : bitJump want b rd n s = .ok t) :
    KeepsRegisters as flagsStay s t := by
  obtain ⟨v, -, h⟩ := Res.bind_eq_ok.1 h
  cases h
  exact KeepsRegisters.refl.jumpWhen ..

theorem jumpPair_keeps {rr : RegPair} (h : jumpPair rr s = .ok t) : KeepsRegisters as flagsStay s t := by
  obtain ⟨a, -, h⟩ := Res.bind_eq_ok.1 h
  cases h
  exact KeepsRegisters.refl.jump a

theorem jumpFar_keeps {f : FarForm} (h : jumpFar f s = .ok t) : KeepsRegisters as flagsStay s t := by
  obtain ⟨g, -, h⟩ := Res.bind_eq_ok.1 h
  cases h
  exact .of_slotByte_eq rfl

/-! ### Instructions -/

theorem Instr.written_ld (f : LdForm) (s : State) : Instr.written (.ld f) s =
    if LdForm.auto f then none else Res.written (LdForm.dst f s) := rfl

/-- An instruction that `Instr.written` covers leaves the registers alone that it does not list. -/
theorem exec_keeps_registers {i : Instr} (ha : Instr.written i s = some as) (h : exec i s = .next t) :
    KeepsRegisters as (Instr.keepsFlags i) s t := by
  cases i
  case or | and | sbc | adc | add | sub | xor | tcm | cp | tm => exact aluByte_keeps ha (Res.outcome_eq_next.1 h)
  case ld f =>
    cases hauto : LdForm.auto f with
    | true => simp [Instr.written_ld, hauto] at ha
    | false =>
      simp only [Instr.written_ld, hauto] at ha
      exact loadByte_keeps hauto ha (Res.outcome_eq_next.1 h)
  case inc | dec | cpl | swap | da | rlc | rrc | rol | ror | sra =>
    exact unaryByte_keeps ha (Res.outcome_eq_next.1 h)
  case clr => exact clearByte_keeps ha (Res.outcome_eq_next.1 h)
  case band | bor | bxor | bld => cases ha; exact twoBit_keeps (Res.outcome_eq_next.1 h)
  case bset | bres | bcpl => cases ha; exact oneBit_keeps (Res.outcome_eq_next.1 h)
  case btset f =>
    cases f with
    | reg b rd => cases ha; exact bitTestSet_reg_keeps (Res.outcome_eq_next.1 h)
    | mem b rr => cases ha; exact bitTestSet_mem_keeps (Res.outcome_eq_next.1 h)
  case djnz => cases ha; exact decJump_keeps (Res.outcome_eq_next.1 h)
  case ext => cases ha; exact signExtendPair_keeps (Res.outcome_eq_next.1 h)
  case btjf | btjt => exact bitJump_keeps (Res.outcome_eq_next.1 h)
  case jpf | jplt | jple | jpule | jpov | jpmi | jpeq | jpult | jpt | jpge | jpgt | jpugt | jpnov | jppl | jpne
      | jpuge => cases h; exact jumpIf_keeps ..
  case jrf | jrlt | jrle | jrule | jrov | jrmi | jreq | jrult | jrt | jrge | jrgt | jrugt | jrnov | jrpl | jrne
      | jruge => cases h; exact jumpRelIf_keeps ..
  case jp => exact jumpPair_keeps (Res.outcome_eq_next.1 h)
  case jps => exact jumpFar_keeps (Res.outcome_eq_next.1 h)
  case scf | rcf | ccf | spm | sdm => cases h; exact KeepsRegisters.refl.flagr _
  case nop | wfi | halt => cases h; exact .of_slotByte_eq rfl
  all_goals cases ha

end

/-- Settles O24: the one register write of such an instruction reaches the register it names, by
`State.slotByte_setCell_other`, and a flag update reaches FLAGR. -/
theorem otherRegistersStay : Obligations.OtherRegistersStay :=
  fun _ _ _ _ ha h => (exec_keeps_registers ha h).slotByte_eq

end Sys2Proof.Machine
end

section
/-! SUPPORT. The laws of memory: what a byte store and a word store make of what memory reads as, and the copies
between the spaces. -/

namespace Sys2Proof.Machine

/-! ### Byte stores (20_memory.md R62, R64, R73) -/

theorem State.translate_congr {s t : State} (hcsr : t.csr = s.csr) (hmap : t.dataMap = s.dataMap) (sp : Space)
    (a : Word) : t.translate sp a = s.translate sp a := by
  cases sp with
  | prog => rw [State.translate, State.translate, hcsr]
  | data => rw [State.translate, State.translate, hmap]

@[simp] theorem State.translate_setMemByte (s : State) (sp sp' : Space) (a b : Word) (v : Byte) :
    (s.setMemByte sp a v).translate sp' b = s.translate sp' b :=
  State.translate_congr (by simp) (by simp) sp' b

/-- What memory reads as depends on the byte stored there, and where there is none on the counter of free values. -/
theorem State.physByte_congr {s t : State} {p : PhysAddr} (hregions : t.memRegions = s.memRegions)
    (hfresh : t.fresh = s.fresh) (hread : Cells.read t.mem p.toNat = Cells.read s.mem p.toNat) (role : ReadRole)
    (sp : Space) (a : Word) : t.physByte role sp a p = s.physByte role sp a p := by
  rw [State.physByte, State.physByte, hregions, hfresh, hread]

theorem State.physByte_of_ram {s : State} {sp : Space} {p : PhysAddr} (h : memKind s.memRegions sp p = .ram)
    (role : ReadRole) (a : Word) : s.physByte role sp a p = Cells.read s.mem p.toNat := by
  rw [State.physByte, h]

/-- A store leaves every other byte of memory alone. -/
theorem State.read_setMemByte_other (s : State) (sp : Space) (a : Word) (v : Byte) {p : PhysAddr}
    (h : p ≠ s.translate sp a) : Cells.read (s.setMemByte sp a v).mem p.toNat = Cells.read s.mem p.toNat := by
  unfold State.setMemByte
  split
  · exact Cells.read_write_other _ _ (mt BitVec.eq_of_toNat_eq h)
  · rfl

theorem State.physByte_setMemByte_other (s : State) (sp : Space) (a : Word) (v : Byte) {p : PhysAddr}
    (h : p ≠ s.translate sp a) (role : ReadRole) (sp' : Space) (a' : Word) :
    (s.setMemByte sp a v).physByte role sp' a' p = s.physByte role sp' a' p :=
  State.physByte_congr (by simp) (by simp) (s.read_setMemByte_other sp a v h) role sp' a'

theorem State.memByte_setMemByte_other (s : State) (sp : Space) {a b : Word} (v : Byte)
    (h : s.translate sp b ≠ s.translate sp a) (role : ReadRole) :
    (s.setMemByte sp a v).memByte role sp b = s.memByte role sp b := by
  rw [State.memByte, State.translate_setMemByte, s.physByte_setMemByte_other sp a v h, State.memByte]

/-- A store to ram is read back. -/
theorem State.memByte_setMemByte_same {s : State} {sp : Space} {a : Word} (v : Byte)
    (h : memKind s.memRegions sp (s.translate sp a) = .ram) (role : ReadRole) :
    (s.setMemByte sp a v).memByte role sp a = v := by
  rw [State.memByte, State.translate_setMemByte, State.physByte_of_ram (by simpa using h), State.setMemByte_ram v h]
  exact Cells.read_write_same ..

/-- Settles O18: a store to ram writes one byte of the storage, and a store elsewhere changes nothing. -/
theorem memoryReadsBackItsWrites : Obligations.MemoryReadsBackItsWrites := by
  rintro s t sp a v rfl
  refine ⟨fun hram => ⟨State.memByte_setMemByte_same v hram, ?_⟩, State.setMemByte_not_ram v,
    fun role sp' a' p hp => s.physByte_setMemByte_other sp a v hp role sp' a', ?_⟩
  · rw [State.setMemByte_ram v hram]
  · unfold State.setMemByte
    split <;> rfl

/-! ### Word stores (20_memory.md R63, R64) -/

theorem Word.hi_toNat (w : Word) : w.hi.toNat = w.toNat / 256 := by
  have hw := w.isLt
  rw [Word.hi, BitVec.extractLsb'_toNat, Nat.shiftRight_eq_div_pow]
  omega

theorem Word.lo_toNat (w : Word) : w.lo.toNat = w.toNat % 256 := by
  rw [Word.lo, BitVec.extractLsb'_toNat, Nat.shiftRight_eq_div_pow]
  omega

/-- Settles O19: the high byte is stored first, and the store of the low byte does not reach it. -/
theorem wordsLieHighByteFirst : Obligations.WordsLieHighByteFirst := by
  rintro s t sp a v role rfl hfirst hsecond happart
  have hhigh : (s.setMemWord sp a v).memByte role sp a = v.hi := by
    rw [State.setMemWord, State.memByte_setMemByte_other _ _ _ (by simpa using happart),
      State.memByte_setMemByte_same _ hfirst]
  have hlow : (s.setMemWord sp a v).memByte role sp (a + 1) = v.lo :=
    State.memByte_setMemByte_same _ (by simpa using hsecond) role
  refine ⟨?_, ?_, ?_⟩
  · rw [hhigh, Word.hi_toNat]
  · rw [hlow, Word.lo_toNat]
  · rw [State.memWord, hhigh, hlow, word_hi_lo]

/-! ### Copies between the spaces (40_load.md R171 to R175) -/

theorem copyByte_eq {spd sps : Space} {rrd rrs : WPair} {s s1 : State} (hd : s.wwOk rrd = true)
    (hs : s.wwOk rrs = true) (hs1 : s1 = s.setMemByte spd (s.ww rrd) (s.memByte .source sps (s.ww rrs)))
    (hbumpd : s1.bumpOk rrd 1 = true) (hbumps : (s1.bumped rrd 1).bumpOk rrs 1 = true) :
    copyByte spd sps rrd rrs s = .ok ((s1.bumped rrd 1).bumped rrs 1) := by
  subst hs1
  simp only [copyByte, readWW_eq hs, readWW_eq hd, Res.bind_ok, bumpWW_eq hbumpd, bumpWW_eq hbumps]

/-- Settles O35: the four instructions are one copy, each between the spaces of its name. -/
theorem spaceCopiesComplete : Obligations.SpaceCopiesComplete := by
  intro i spd sps rrd rrs s s1 hi hd hs hs1 hbumpd hbumps
  have hexec : exec i s = Res.outcome (copyByte spd sps rrd rrs s) := by
    simp only [List.mem_cons, Prod.mk.injEq, List.not_mem_nil, or_false] at hi
    obtain ⟨rfl, rfl, rfl⟩ | ⟨rfl, rfl, rfl⟩ | ⟨rfl, rfl, rfl⟩ | ⟨rfl, rfl, rfl⟩ := hi <;> rfl
  rw [hexec, copyByte_eq hd hs hs1 hbumpd hbumps, Res.outcome_ok]

end Sys2Proof.Machine
end

section
/-! SUPPORT. The byte stores of an instruction: the list of stores accounts for memory along every chain of writes,
and each instruction adds to it stores at the addresses of `Instr.stores` only. -/

namespace Sys2Proof.Machine

/-! ### What the list of stores says of memory -/

/-- From `s` to `t` the stores `w` were made: they joined the list of stores, and each byte of memory is as the last
of them left it, or as before. -/
structure Stored (w : List (PhysAddr × Byte)) (s t : State) : Prop where
  stores_eq : t.stores = s.stores ++ w
  read_eq : ∀ p : PhysAddr, Cells.read t.mem p.toNat = (w.reverse.lookup p).getD (Cells.read s.mem p.toNat)

theorem Stored.nil {s t : State} (hstores : t.stores = s.stores) (hmem : t.mem = s.mem) : Stored [] s t :=
  ⟨by simp [hstores], fun p => by simp [hmem]⟩

theorem Stored.append {w w' : List (PhysAddr × Byte)} {s t u : State} (h : Stored w s t) (h' : Stored w' t u) :
    Stored (w ++ w') s u := by
  refine ⟨by rw [h'.stores_eq, h.stores_eq, List.append_assoc], fun p => ?_⟩
  rw [h'.read_eq, h.read_eq, List.reverse_append, List.lookup_append]
  cases w'.reverse.lookup p <;> rfl

theorem Stored.setMemByte (s : State) (sp : Space) (a : Word) (v : Byte) :
    ∃ w, Stored w s (s.setMemByte sp a v) := by
  by_cases hram : memKind s.memRegions sp (s.translate sp a) = .ram
  · refine ⟨[(s.translate sp a, v)], by rw [State.setMemByte_ram v hram], fun p => ?_⟩
    by_cases hp : p = s.translate sp a
    · subst hp
      simp [State.setMemByte_ram v hram]
    · rw [s.read_setMemByte_other sp a v hp]
      simp [List.lookup_cons, beq_false_of_ne hp]
  · exact ⟨[], .nil (by rw [State.setMemByte_not_ram v hram]) (by rw [State.setMemByte_not_ram v hram])⟩

variable {may : ControlPart → Prop} {s t : State}

theorem Write.stored (hw : Write may s t) : ∃ w, Stored w s t := by
  cases hw with
  | memory _ sp a v => exact Stored.setMemByte s sp a v
  | _ => exact ⟨[], .nil (by simp) (by simp)⟩

theorem Writes.stored (hw : Writes may s t) : ∃ w, Stored w s t := by
  induction hw with
  | refl => exact ⟨[], .nil rfl rfl⟩
  | tail _ hstep ih =>
    obtain ⟨w, hfirst⟩ := ih
    obtain ⟨w', hlast⟩ := hstep.stored
    exact ⟨w ++ w', hfirst.append hlast⟩

/-! ### Stores at given addresses -/

/-- What `t` has in its list of stores beyond `s` went to the addresses `ps`. -/
def StoresTo (ps : List PhysAddr) (s t : State) : Prop := ∃ w, t.stores = s.stores ++ w ∧ ∀ e ∈ w, e.1 ∈ ps

variable {ps qs : List PhysAddr} {u : State}

theorem StoresTo.of_eq (h : t.stores = s.stores) : StoresTo ps s t := ⟨[], by simp [h], by simp⟩

theorem StoresTo.append (h : StoresTo ps s t) (h' : StoresTo qs t u) : StoresTo (ps ++ qs) s u := by
  obtain ⟨w, hw, hps⟩ := h
  obtain ⟨w', hw', hqs⟩ := h'
  refine ⟨w ++ w', by rw [hw', hw, List.append_assoc], fun e he => ?_⟩
  rcases List.mem_append.1 he with he | he
  · exact List.mem_append_left _ (hps e he)
  · exact List.mem_append_right _ (hqs e he)

/-- What makes no store may come before and after. -/
theorem StoresTo.between {s' t' : State} (h : StoresTo ps s' t') (hs : s'.stores = s.stores)
    (ht : t.stores = t'.stores) : StoresTo ps s t := by
  obtain ⟨w, hw, hps⟩ := h
  exact ⟨w, by rw [ht, hw, hs], hps⟩

theorem StoresTo.setMemByte (s : State) (sp : Space) (a : Word) (v : Byte) :
    StoresTo [s.translate sp a] s (s.setMemByte sp a v) := by
  by_cases hram : memKind s.memRegions sp (s.translate sp a) = .ram
  · exact ⟨[(s.translate sp a, v)], by rw [State.setMemByte_ram v hram], by simp⟩
  · exact .of_eq (by rw [State.setMemByte_not_ram v hram])

theorem StoresTo.setMemWord (s : State) (sp : Space) (a v : Word) :
    StoresTo [s.translate sp a, s.translate sp (a + 1)] s (s.setMemWord sp a v) := by
  have hlow := StoresTo.setMemByte (s.setMemByte sp a v.hi) sp (a + 1) v.lo
  rw [State.translate_setMemByte] at hlow
  exact (StoresTo.setMemByte s sp a v.hi).append hlow

/-! ### The operations over registers and stacks -/

theorem writeReg_stores {a v : Byte} (h : writeReg a v s = .ok t) : t.stores = s.stores := by
  obtain ⟨-, rfl⟩ := writeReg_ok_iff.1 h
  exact State.setReg_stores ..

theorem writePair_stores {a : Byte} {v : Word} (h : writePair a v s = .ok t) : t.stores = s.stores := by
  obtain ⟨u, hhigh, hlow⟩ := Res.bind_eq_ok.1 h
  exact (writeReg_stores hlow).trans (writeReg_stores hhigh)

theorem bumpWW_stores {n : WPair} {d : Word} (h : bumpWW n d s = .ok t) : t.stores = s.stores := by
  obtain ⟨v, -, h⟩ := Res.bind_eq_ok.1 h
  exact writePair_stores h

theorem bumpW_stores {n : WReg} (h : bumpW n s = .ok t) : t.stores = s.stores := by
  obtain ⟨v, -, h⟩ := Res.bind_eq_ok.1 h
  exact writeReg_stores h

theorem pop8_stores {k : Stack} {v : Byte} (h : pop8 k s = .ok (v, t)) : t.stores = s.stores := by
  unfold pop8 at h
  split at h
  · obtain ⟨b, -, h⟩ := Res.bind_eq_ok.1 h
    cases h; exact State.setSpLow_stores ..
  · cases h; exact State.setSp_stores ..

theorem pop16_stores {k : Stack} {w : Word} (h : pop16 k s = .ok (w, t)) : t.stores = s.stores := by
  unfold pop16 at h
  split at h
  · simp only [Res.bind_eq_ok] at h
    obtain ⟨b, -, c, -, h⟩ := h
    cases h; exact State.setSpLow_stores ..
  · cases h; exact State.setSp_stores ..

theorem store8_storesTo {l : Loc} {v : Byte} (h : store8 l v s = .ok t) : StoresTo (s.locBytes l) s t := by
  cases l with
  | reg a => exact .of_eq (writeReg_stores h)
  | mem a => cases h; exact .setMemByte ..

theorem store16_storesTo {l : Loc} {v : Word} (h : store16 l v s = .ok t) : StoresTo (s.locWords l) s t := by
  cases l with
  | reg a => exact .of_eq (writePair_stores h)
  | mem a => cases h; exact .setMemWord ..

@[simp] theorem State.translate_data_setSp (s : State) (k : Stack) (v a : Word) :
    (s.setSp k v).translate .data a = s.translate .data a :=
  State.translate_congr (by simp) (by simp) .data a

/-- A push to the register file makes no store. -/
theorem push8_stores_of_inRegfile {k : Stack} {v : Byte} (hk : s.inRegfile k = true) (h : push8 k v s = .ok t) :
    t.stores = s.stores := by
  rw [push8, if_pos hk] at h
  exact (writeReg_stores h).trans (State.setSpLow_stores ..)

theorem push16_stores_of_inRegfile {k : Stack} {w : Word} (hk : s.inRegfile k = true) (h : push16 k w s = .ok t) :
    t.stores = s.stores := by
  rw [push16, if_pos hk] at h
  obtain ⟨u, hhigh, hlow⟩ := Res.bind_eq_ok.1 h
  exact (writeReg_stores hlow).trans ((writeReg_stores hhigh).trans (State.setSpLow_stores ..))

theorem push8_of_memory {k : Stack} {v : Byte} (hk : s.inRegfile k = false) :
    push8 k v s = .ok ((s.setSp k (s.sp k - 1)).setMemByte .data (s.sp k - 1) v) := by
  simp [push8, hk]

theorem push16_of_memory {k : Stack} {w : Word} (hk : s.inRegfile k = false) :
    push16 k w s = .ok ((s.setSp k (s.sp k - 2)).setMemWord .data (s.sp k - 2) w) := by
  simp [push16, hk]

theorem push8_storesTo {k : Stack} {v : Byte} (h : push8 k v s = .ok t) : StoresTo (s.pushBytes k) s t := by
  cases hk : s.inRegfile k with
  | true => exact .of_eq (push8_stores_of_inRegfile hk h)
  | false =>
    cases (push8_of_memory hk).symm.trans h
    have hstore := StoresTo.setMemByte (s.setSp k (s.sp k - 1)) .data (s.sp k - 1) v
    rw [State.translate_data_setSp] at hstore
    simpa [State.pushBytes, hk] using hstore.between (State.setSp_stores ..) rfl

theorem push16_storesTo {k : Stack} {w : Word} (h : push16 k w s = .ok t) : StoresTo (s.pushWords k) s t := by
  cases hk : s.inRegfile k with
  | true => exact .of_eq (push16_stores_of_inRegfile hk h)
  | false =>
    cases (push16_of_memory hk).symm.trans h
    have hstore := StoresTo.setMemWord (s.setSp k (s.sp k - 2)) .data (s.sp k - 2) w
    rw [State.translate_data_setSp, State.translate_data_setSp] at hstore
    simpa [State.pushWords, hk] using hstore.between (State.setSp_stores ..) rfl

/-! ### Pre-decrements and post-increments -/

theorem KByteForm.pre_stores {f : KByteForm} (h : KByteForm.pre f s = .ok t) : t.stores = s.stores := by
  cases f
  case a11 | a12 => exact bumpWW_stores h
  all_goals cases h; rfl

theorem KByteForm.post_stores {f : KByteForm} (h : KByteForm.post f s = .ok t) : t.stores = s.stores := by
  cases f
  case a9 | a10 => exact bumpWW_stores h
  all_goals cases h; rfl

theorem AluByteForm.pre_stores {f : AluByteForm} (h : AluByteForm.pre f s = .ok t) : t.stores = s.stores := by
  cases f
  case k => exact KByteForm.pre_stores h
  all_goals cases h; rfl

theorem AluByteForm.post_stores {f : AluByteForm} (h : AluByteForm.post f s = .ok t) : t.stores = s.stores := by
  cases f
  case k => exact KByteForm.post_stores h
  all_goals cases h; rfl

theorem LdForm.pre_stores {f : LdForm} (h : LdForm.pre f s = .ok t) : t.stores = s.stores := by
  cases f
  case k => exact KByteForm.pre_stores h
  all_goals cases h; rfl

theorem LdForm.post_stores {f : LdForm} (h : LdForm.post f s = .ok t) : t.stores = s.stores := by
  cases f
  case k => exact KByteForm.post_stores h
  case d7Load | d7Store =>
    obtain ⟨u, hfirst, hsecond⟩ := Res.bind_eq_ok.1 h
    exact (bumpWW_stores hsecond).trans (bumpW_stores hfirst)
  all_goals cases h; rfl

theorem KWordForm.pre_stores {f : KWordForm} (h : KWordForm.pre f s = .ok t) : t.stores = s.stores := by
  cases f
  case w12 | w13 => exact bumpWW_stores h
  all_goals cases h; rfl

theorem KWordForm.post_stores {f : KWordForm} (h : KWordForm.post f s = .ok t) : t.stores = s.stores := by
  cases f
  case w10 | w11 => exact bumpWW_stores h
  all_goals cases h; rfl

theorem AluWordForm.pre_stores {f : AluWordForm} (h : AluWordForm.pre f s = .ok t) : t.stores = s.stores := by
  cases f
  case k => exact KWordForm.pre_stores h
  all_goals cases h; rfl

theorem AluWordForm.post_stores {f : AluWordForm} (h : AluWordForm.post f s = .ok t) : t.stores = s.stores := by
  cases f
  case k => exact KWordForm.post_stores h
  all_goals cases h; rfl

theorem LdwForm.pre_stores {f : LdwForm} (h : LdwForm.pre f s = .ok t) : t.stores = s.stores := by
  cases f
  case k => exact KWordForm.pre_stores h
  all_goals cases h; rfl

theorem LdwForm.post_stores {f : LdwForm} (h : LdwForm.post f s = .ok t) : t.stores = s.stores := by
  cases f
  case k => exact KWordForm.post_stores h
  all_goals cases h; rfl

/-! ### The meanings that store -/

@[simp] theorem Res.addrs_ok (l : List PhysAddr) : Res.addrs (.ok l) = l := rfl

theorem aluByte_storesTo {op : AluOp} {f : AluByteForm} (h : aluByte op f s = .ok t) :
    StoresTo (aluByteStores op f s) s t := by
  simp only [aluByte, storeResult8, Res.bind_eq_ok] at h
  obtain ⟨u, hpre, l, hdst, v, -, d, -, w, hstore, hpost⟩ := h
  simp only [aluByteStores, hpre, hdst, Res.bind_ok, Res.addrs_ok]
  refine StoresTo.between (t' := w) ?_ (AluByteForm.pre_stores hpre) (AluByteForm.post_stores hpost :)
  split at hstore
  · rw [if_pos ‹_›]
    exact store8_storesTo hstore
  · cases hstore; exact .of_eq rfl

theorem aluWord_storesTo {op : AluOp} {f : AluWordForm} (h : aluWord op f s = .ok t) :
    StoresTo (aluWordStores op f s) s t := by
  simp only [aluWord, storeResult16, Res.bind_eq_ok] at h
  obtain ⟨u, hpre, l, hdst, v, -, d, -, w, hstore, hpost⟩ := h
  simp only [aluWordStores, hpre, hdst, Res.bind_ok, Res.addrs_ok]
  refine StoresTo.between (t' := w) ?_ (AluWordForm.pre_stores hpre) (AluWordForm.post_stores hpost :)
  split at hstore
  · rw [if_pos ‹_›]
    exact store16_storesTo hstore
  · cases hstore; exact .of_eq rfl

/-- An operation that does not store its result stores nothing. -/
theorem aluByte_stores {op : AluOp} {f : AluByteForm} (hop : aluStores op = false) (h : aluByte op f s = .ok t) :
    t.stores = s.stores := by
  simp only [aluByte, storeResult8, hop, Bool.false_eq_true, if_false, Res.bind_eq_ok] at h
  obtain ⟨u, hpre, l, -, v, -, d, -, w, hstore, hpost⟩ := h
  cases hstore
  exact (AluByteForm.post_stores hpost).trans (AluByteForm.pre_stores hpre :)

theorem aluWord_stores {op : AluOp} {f : AluWordForm} (hop : aluStores op = false) (h : aluWord op f s = .ok t) :
    t.stores = s.stores := by
  simp only [aluWord, storeResult16, hop, Bool.false_eq_true, if_false, Res.bind_eq_ok] at h
  obtain ⟨u, hpre, l, -, v, -, d, -, w, hstore, hpost⟩ := h
  cases hstore
  exact (AluWordForm.post_stores hpost).trans (AluWordForm.pre_stores hpre :)

theorem loadByte_storesTo {f : LdForm} (h : loadByte f s = .ok t) : StoresTo (ldStores f s) s t := by
  simp only [loadByte, Res.bind_eq_ok] at h
  obtain ⟨u, hpre, l, hdst, v, -, w, hstore, hpost⟩ := h
  simp only [ldStores, hpre, hdst, Res.bind_ok, Res.addrs_ok]
  exact (store8_storesTo hstore).between (LdForm.pre_stores hpre) (LdForm.post_stores hpost)

theorem loadWord_storesTo {f : LdwForm} (h : loadWord f s = .ok t) : StoresTo (ldwStores f s) s t := by
  simp only [loadWord, Res.bind_eq_ok] at h
  obtain ⟨u, hpre, l, hdst, v, -, w, hstore, hpost⟩ := h
  simp only [ldwStores, hpre, hdst, Res.bind_ok, Res.addrs_ok]
  exact (store16_storesTo hstore).between (LdwForm.pre_stores hpre) (LdwForm.post_stores hpost)

theorem copyByte_storesTo {spd sps : Space} {rrd rrs : WPair} (h : copyByte spd sps rrd rrs s = .ok t) :
    StoresTo (copyStores spd rrd s) s t := by
  simp only [copyByte, Res.bind_eq_ok] at h
  obtain ⟨a, -, d, hdst, u, hbumpd, hbumps⟩ := h
  simp only [copyStores, hdst, Res.bind_ok, Res.addrs_ok]
  exact (StoresTo.setMemByte ..).between rfl ((bumpWW_stores hbumps).trans (bumpWW_stores hbumpd))

theorem pushByteOn_storesTo {k : Stack} {f : PushForm} (h : pushByteOn k f s = .ok t) :
    StoresTo (s.pushBytes k) s t := by
  obtain ⟨v, -, h⟩ := Res.bind_eq_ok.1 h
  exact push8_storesTo h

theorem pushWordOn_storesTo {k : Stack} {f : PushWordForm} (h : pushWordOn k f s = .ok t) :
    StoresTo (s.pushWords k) s t := by
  obtain ⟨w, -, h⟩ := Res.bind_eq_ok.1 h
  exact push16_storesTo h

theorem pushAddrOn_storesTo {k : Stack} {f : PeaForm} (h : pushAddrOn k f s = .ok t) :
    StoresTo (s.pushWords k) s t := by
  obtain ⟨w, -, h⟩ := Res.bind_eq_ok.1 h
  exact push16_storesTo h

theorem linkOn_storesTo {k : Stack} {rr : RegPair} {n : Byte} (h : linkOn k rr n s = .ok t) :
    StoresTo (s.pushWords k) s t := by
  cases hk : s.inRegfile k with
  | true =>
    simp only [linkOn, hk, if_true, Res.bind_eq_ok] at h
    obtain ⟨v, -, u, hpush, w, hstore, h⟩ := h
    cases h
    refine .of_eq (((State.setSpHigh_stores ..).trans (State.setSpLow_stores ..)).trans ?_)
    exact (writeReg_stores hstore).trans (push8_stores_of_inRegfile hk hpush)
  | false =>
    simp only [linkOn, hk, Bool.false_eq_true, if_false, Res.bind_eq_ok] at h
    obtain ⟨v, -, u, hpush, w, hstore, h⟩ := h
    cases h
    exact (push16_storesTo hpush).between rfl ((State.setSp_stores ..).trans (writePair_stores hstore))

theorem callNear_storesTo {f : CallForm} (h : callNear f s = .ok t) : StoresTo (s.pushWords .system) s t := by
  simp only [callNear, Res.bind_eq_ok] at h
  obtain ⟨a, -, u, hpush, h⟩ := h
  cases h
  exact (push16_storesTo hpush).between rfl rfl

/-- No write moves a stack to or from the register file. -/
theorem Writes.inRegfile (hw : Writes may s t) (k : Stack) : t.inRegfile k = s.inRegfile k :=
  hw.keeps (fun r => r.inRegfile k) fun _ _ hstep => by cases hstep <;> cases k <;> simp [State.inRegfile]

/-- The byte of CSR goes below the word that the call has pushed before. -/
theorem callFar_storesTo {f : FarForm} (h : callFar f s = .ok t) : StoresTo (callsStores s) s t := by
  simp only [callFar, Res.bind_eq_ok] at h
  obtain ⟨g, -, u, hpc, w, hcsr, h⟩ := h
  cases h
  have hregfile : u.inRegfile .system = s.inRegfile .system :=
    (push16_writes (may := fun _ => False) hpc).inRegfile .system
  cases hk : s.inRegfile .system with
  | true =>
    exact .of_eq ((push8_stores_of_inRegfile (hregfile.trans hk) hcsr).trans (push16_stores_of_inRegfile hk hpc))
  | false =>
    have hbyte : u.pushBytes .system = [s.translate .data (s.ssp - 2 - 1)] := by
      rw [State.pushBytes, hregfile, hk]
      cases (push16_of_memory hk).symm.trans hpc
      simp [State.setMemWord, State.sp]
    have hpushes := (push16_storesTo hpc).append (push8_storesTo hcsr)
    rw [hbyte] at hpushes
    rw [callsStores, hk]
    exact hpushes.between rfl rfl

theorem takeDivideByZero_storesTo (h : takeDivideByZero s = .ok t) : StoresTo (s.pushWords .system) s t := by
  obtain ⟨u, hpush, h⟩ := Res.bind_eq_ok.1 h
  cases h
  exact (push16_storesTo hpush).between rfl rfl

theorem divide_storesTo {rrd : WPair} {rs : WReg} (h : divide rrd rs s = .ok t) : StoresTo (divStores rs s) s t := by
  simp only [divide, Res.bind_eq_ok] at h
  obtain ⟨n, -, d, hdivisor, h⟩ := h
  simp only [divStores, hdivisor, Res.bind_ok, Res.addrs_ok]
  split_ifs at h ⊢
  · exact takeDivideByZero_storesTo h
  · cases h; exact .of_eq rfl
  · obtain ⟨u, hhigh, h⟩ := Res.bind_eq_ok.1 h
    obtain ⟨w, hlow, h⟩ := Res.bind_eq_ok.1 h
    cases h
    exact .of_eq ((writeReg_stores hlow).trans (writeReg_stores hhigh))

theorem bitTestSet_storesTo {f : BtsetForm} (h : bitTestSet f s = .ok t) : StoresTo (btsetStores f s) s t := by
  cases f with
  | reg b rd =>
    simp only [bitTestSet, Res.bind_eq_ok] at h
    obtain ⟨v, -, u, hstore, h⟩ := h
    cases h
    exact .of_eq (writeReg_stores hstore :)
  | mem b rr =>
    obtain ⟨a, haddr, h⟩ := Res.bind_eq_ok.1 h
    cases h
    simp only [btsetStores, haddr, Res.bind_ok, Res.addrs_ok]
    exact StoresTo.setMemByte ..

/-! ### The meanings that do not store -/

theorem unaryByte_stores {g : State → Byte → ByteResult} {r : ByteTarget} (h : unaryByte g r s = .ok t) :
    t.stores = s.stores := by
  simp only [unaryByte, Res.bind_eq_ok] at h
  obtain ⟨a, -, d, -, u, hstore, h⟩ := h
  cases h
  exact (writeReg_stores hstore :)

theorem unaryWord_stores {g : State → Word → WordResult} {rr : RegPair} (h : unaryWord g rr s = .ok t) :
    t.stores = s.stores := by
  simp only [unaryWord, Res.bind_eq_ok] at h
  obtain ⟨d, -, u, hstore, h⟩ := h
  cases h
  exact (writePair_stores hstore :)

theorem clearByte_stores {r : ByteTarget} (h : clearByte r s = .ok t) : t.stores = s.stores := by
  obtain ⟨a, -, h⟩ := Res.bind_eq_ok.1 h
  exact writeReg_stores h

theorem popByteFrom_stores {k : Stack} {r : ByteTarget} (h : popByteFrom k r s = .ok t) : t.stores = s.stores := by
  simp only [popByteFrom, Res.bind_eq_ok] at h
  obtain ⟨a, -, ⟨v, u⟩, hpop, hstore⟩ := h
  exact (writeReg_stores hstore).trans (pop8_stores hpop)

theorem popWordFrom_stores {k : Stack} {rr : RegPair} (h : popWordFrom k rr s = .ok t) : t.stores = s.stores := by
  obtain ⟨⟨w, u⟩, hpop, hstore⟩ := Res.bind_eq_ok.1 h
  exact (writePair_stores hstore).trans (pop16_stores hpop)

theorem unlinkFrom_stores {k : Stack} {rr : RegPair} (h : unlinkFrom k rr s = .ok t) : t.stores = s.stores := by
  unfold unlinkFrom at h
  split at h
  · simp only [Res.bind_eq_ok] at h
    obtain ⟨l, -, ⟨v, u⟩, hpop, w, hstore, h⟩ := h
    cases h
    refine (State.setSpHigh_stores ..).trans ((writeReg_stores hstore).trans ?_)
    exact (pop8_stores hpop).trans (State.setSpLow_stores ..)
  · simp only [Res.bind_eq_ok] at h
    obtain ⟨p, -, ⟨w, u⟩, hpop, hstore⟩ := h
    exact (writePair_stores hstore).trans ((pop16_stores hpop).trans (State.setSp_stores ..))

theorem multiply_stores {rrd : WPair} {rs : WReg} (h : multiply rrd rs s = .ok t) : t.stores = s.stores := by
  simp only [multiply, Res.bind_eq_ok] at h
  obtain ⟨a, -, b, -, u, hstore, h⟩ := h
  cases h
  exact (writePair_stores hstore :)

theorem divideStep_stores {rrh rrl : WPair} {rrs : RegPair} (h : divideStep rrh rrl rrs s = .ok t) :
    t.stores = s.stores := by
  simp only [divideStep, Res.bind_eq_ok] at h
  obtain ⟨a, -, b, -, v, -, u, hhigh, w, hlow, h⟩ := h
  cases h
  exact (writePair_stores hlow).trans (writePair_stores hhigh)

theorem twoBit_stores {g : Bool → Bool → Bool} {src : BitSource} {bd bs : BitVec 3} {rd rs : WReg}
    (h : twoBit g src bd rd bs rs s = .ok t) : t.stores = s.stores := by
  simp only [twoBit, Res.bind_eq_ok] at h
  obtain ⟨v, -, d, -, hstore⟩ := h
  exact writeReg_stores hstore

theorem oneBit_stores {g : Bool → Bool} {b : BitVec 3} {rd : WReg} (h : oneBit g b rd s = .ok t) :
    t.stores = s.stores := by
  obtain ⟨d, -, hstore⟩ := Res.bind_eq_ok.1 h
  exact writeReg_stores hstore

theorem exchange_stores {rd rs : Reg} (h : exchange rd rs s = .ok t) : t.stores = s.stores := by
  simp only [exchange, Res.bind_eq_ok] at h
  obtain ⟨a, -, b, -, u, hfirst, hsecond⟩ := h
  exact (writeReg_stores hsecond).trans (writeReg_stores hfirst)

theorem signExtendPair_stores {rr : RegPair} (h : signExtendPair rr s = .ok t) : t.stores = s.stores := by
  obtain ⟨l, -, hstore⟩ := Res.bind_eq_ok.1 h
  exact writeReg_stores hstore

theorem State.jumpWhen_stores (c : Prop) [Decidable c] (s : State) (a : Word) :
    (if c then s.jump a else s).stores = s.stores := by
  split <;> rfl

theorem bitJump_stores {want : Bool} {b : BitVec 3} {rd : WReg} {n : Byte} (h : bitJump want b rd n s = .ok t) :
    t.stores = s.stores := by
  obtain ⟨v, -, h⟩ := Res.bind_eq_ok.1 h
  cases h
  exact State.jumpWhen_stores ..

theorem jumpPair_stores {rr : RegPair} (h : jumpPair rr s = .ok t) : t.stores = s.stores := by
  obtain ⟨a, -, h⟩ := Res.bind_eq_ok.1 h
  cases h
  rfl

theorem jumpFar_stores {f : FarForm} (h : jumpFar f s = .ok t) : t.stores = s.stores := by
  obtain ⟨g, -, h⟩ := Res.bind_eq_ok.1 h
  cases h
  rfl

theorem returnNear_stores (h : returnNear s = .ok t) : t.stores = s.stores := by
  obtain ⟨⟨a, u⟩, hpop, h⟩ := Res.bind_eq_ok.1 h
  cases h
  exact (pop16_stores hpop :)

theorem returnFar_stores (h : returnFar s = .ok t) : t.stores = s.stores := by
  simp only [returnFar, Res.bind_eq_ok] at h
  obtain ⟨⟨c, u⟩, hpop8, ⟨a, w⟩, hpop16, h⟩ := h
  cases h
  exact (pop16_stores hpop16).trans (pop8_stores hpop8 :)

theorem popCsr_stores (h : popCsr s = .ok t) : t.stores = s.stores := by
  unfold popCsr at h
  split at h
  · obtain ⟨⟨c, u⟩, hpop, h⟩ := Res.bind_eq_ok.1 h
    cases h
    exact (pop8_stores hpop :)
  · cases h; rfl

theorem returnFromInterrupt_stores (h : returnFromInterrupt s = .ok t) : t.stores = s.stores := by
  simp only [returnFromInterrupt, Res.bind_eq_ok] at h
  obtain ⟨⟨f, u⟩, hflagr, w, hpopCsr, ⟨a, x⟩, hpop16, h⟩ := h
  cases h
  exact (pop16_stores hpop16).trans ((popCsr_stores hpopCsr).trans (pop8_stores hflagr :))

theorem decJump_stores {r : WReg} {n : Byte} (h : decJump r n s = .ok t) : t.stores = s.stores := by
  simp only [decJump, Res.bind_eq_ok] at h
  obtain ⟨v, -, u, hstore, h⟩ := h
  cases h
  exact (State.jumpWhen_stores ..).trans (writeReg_stores hstore)

theorem decJumpWord_stores {rr : RegPair} {n : Byte} (h : decJumpWord rr n s = .ok t) : t.stores = s.stores := by
  simp only [decJumpWord, Res.bind_eq_ok] at h
  obtain ⟨v, -, u, hstore, h⟩ := h
  cases h
  exact (State.jumpWhen_stores ..).trans (writePair_stores hstore)

theorem compareJump_stores {whenEqual : Bool} {rd : WReg} {rrs : WPair} {n : Byte}
    (h : compareJump whenEqual rd rrs n s = .ok t) : t.stores = s.stores := by
  simp only [compareJump, Res.bind_eq_ok] at h
  obtain ⟨a, -, d, -, h⟩ := h
  split at h
  · cases h; rfl
  · exact writePair_stores h

/-! ### Instructions -/

/-- An instruction adds to the list of stores at the addresses that `Instr.stores` computes. -/
theorem exec_storesTo {i : Instr} (h : exec i s = .next t) : StoresTo (Instr.stores i s) s t := by
  cases i
  case or | and | sbc | adc | add | sub | xor => exact aluByte_storesTo (Res.outcome_eq_next.1 h)
  case tcm | cp | tm => exact .of_eq (aluByte_stores rfl (Res.outcome_eq_next.1 h))
  case orw | andw | sbcw | adcw | addw | subw | xorw => exact aluWord_storesTo (Res.outcome_eq_next.1 h)
  case tcmw | cpw | tmw => exact .of_eq (aluWord_stores rfl (Res.outcome_eq_next.1 h))
  case ld => exact loadByte_storesTo (Res.outcome_eq_next.1 h)
  case ldw => exact loadWord_storesTo (Res.outcome_eq_next.1 h)
  case ldpp | lddp | ldpd | lddd => exact copyByte_storesTo (Res.outcome_eq_next.1 h)
  case push | pushu => exact pushByteOn_storesTo (Res.outcome_eq_next.1 h)
  case pushw | pushuw => exact pushWordOn_storesTo (Res.outcome_eq_next.1 h)
  case pea | peau => exact pushAddrOn_storesTo (Res.outcome_eq_next.1 h)
  case link | linku => exact linkOn_storesTo (Res.outcome_eq_next.1 h)
  case call => exact callNear_storesTo (Res.outcome_eq_next.1 h)
  case calls => exact callFar_storesTo (Res.outcome_eq_next.1 h)
  case div => exact divide_storesTo (Res.outcome_eq_next.1 h)
  case btset => exact bitTestSet_storesTo (Res.outcome_eq_next.1 h)
  case inc | dec | cpl | swap | da | rlc | rrc | rol | ror | sra =>
    exact .of_eq (unaryByte_stores (Res.outcome_eq_next.1 h))
  case clr => exact .of_eq (clearByte_stores (Res.outcome_eq_next.1 h))
  case incw | decw | rlcw | rrcw | sraw => exact .of_eq (unaryWord_stores (Res.outcome_eq_next.1 h))
  case pop | popu => exact .of_eq (popByteFrom_stores (Res.outcome_eq_next.1 h))
  case popw | popuw => exact .of_eq (popWordFrom_stores (Res.outcome_eq_next.1 h))
  case unlink | unlinku => exact .of_eq (unlinkFrom_stores (Res.outcome_eq_next.1 h))
  case mul => exact .of_eq (multiply_stores (Res.outcome_eq_next.1 h))
  case divws => exact .of_eq (divideStep_stores (Res.outcome_eq_next.1 h))
  case band | bor | bxor | bld => exact .of_eq (twoBit_stores (Res.outcome_eq_next.1 h))
  case bset | bres | bcpl => exact .of_eq (oneBit_stores (Res.outcome_eq_next.1 h))
  case btjf | btjt => exact .of_eq (bitJump_stores (Res.outcome_eq_next.1 h))
  case jpf | jplt | jple | jpule | jpov | jpmi | jpeq | jpult | jpt | jpge | jpgt | jpugt | jpnov | jppl | jpne
      | jpuge | jrf | jrlt | jrle | jrule | jrov | jrmi | jreq | jrult | jrt | jrge | jrgt | jrugt | jrnov | jrpl
      | jrne | jruge => cases h; exact .of_eq (State.jumpWhen_stores ..)
  case jp => exact .of_eq (jumpPair_stores (Res.outcome_eq_next.1 h))
  case jps => exact .of_eq (jumpFar_stores (Res.outcome_eq_next.1 h))
  case ret => exact .of_eq (returnNear_stores (Res.outcome_eq_next.1 h))
  case rets => exact .of_eq (returnFar_stores (Res.outcome_eq_next.1 h))
  case iret => exact .of_eq (returnFromInterrupt_stores (Res.outcome_eq_next.1 h))
  case djnz => exact .of_eq (decJump_stores (Res.outcome_eq_next.1 h))
  case dwjnz => exact .of_eq (decJumpWord_stores (Res.outcome_eq_next.1 h))
  case cpjfi | cpjti => exact .of_eq (compareJump_stores (Res.outcome_eq_next.1 h))
  case xch => exact .of_eq (exchange_stores (Res.outcome_eq_next.1 h))
  case ext => exact .of_eq (signExtendPair_stores (Res.outcome_eq_next.1 h))
  case srp | srp0 | srp1 | spp | ei | di | scf | rcf | ccf | spm | sdm | nop | wfi | halt =>
    cases h; exact .of_eq rfl
  case etrap | eret => cases h

/-- Settles O22: the stores of an instruction are a part of the list of stores (`exec_storesTo`), and that part
accounts for memory (`Writes.stored`). -/
theorem instructionsStoreOnlyWhereTheySay : Obligations.InstructionsStoreOnlyWhereTheySay := by
  intro i s t h
  have hw := exec_writes h
  obtain ⟨w, hstored⟩ := hw.stored
  have hin : ∀ e ∈ w, e.1 ∈ Instr.stores i s := by
    obtain ⟨w', hstores, hin⟩ := exec_storesTo h
    rwa [List.append_cancel_left (hstored.stores_eq.symm.trans hstores)]
  refine ⟨fun role sp a p hp => ?_, w, hstored.stores_eq, hin, hstored.read_eq⟩
  have hnone : w.reverse.lookup p = none := by
    rw [List.lookup_eq_none_iff]
    exact fun e he => bne_iff_ne.2 fun hpe => hp (hpe ▸ hin e (List.mem_reverse.1 he))
  refine State.physByte_congr ?_ ?_ (by rw [hstored.read_eq, hnone, Option.getD_none]) role sp a
  · exact hw.keeps State.memRegions fun u v hstep => by cases hstep <;> simp
  · exact hw.keeps State.fresh fun u v hstep => by cases hstep <;> simp

end Sys2Proof.Machine
end

section
/-! SUPPORT. Decoding what the encoder writes (spec/30_encoding.md R103 to R121). -/

namespace Sys2Proof

/-! ### Forms whose K nibble stands in a later byte (30_encoding.md R120) -/

/-- Decoding reads a byte form A5 to A23 up to its K nibble, whatever the nibble: what the nibble selects is left
to `decodeAld`. -/
theorem decode_encodeKByte (k : BitVec 4) {f : KByteForm} (hf : f.wf = true) (rest : List Byte) :
    decode (encodeKByte k f ++ rest) = decodeAld k f rest := by
  cases f with
  | a5 => simp [encodeKByte, decode_E6, decodeX6, read2]
  | a6 => simp [encodeKByte, decode_E7, decodeX7, AluOp.ofK, read2]
  | a7 | a8 => simp_all [encodeKByte, KByteForm.wf, decode_72, decodeX2, AluOp.ofK, read2]
  | a9 | a10 => simp_all [encodeKByte, KByteForm.wf, decode_B4, decodeX4, AluOp.ofK, read2]
  | a11 | a12 => simp_all [encodeKByte, KByteForm.wf, decode_C2, decodeX2, AluOp.ofK, read2]
  | a13 | a14 => simp_all [encodeKByte, KByteForm.wf, decode_60, decodeX0, decode60, read2]
  | a15 | a16 => simp_all [encodeKByte, KByteForm.wf, decode_7F, decodeXF, read1, read2, read3]
  | a17 | a18 => simp_all [encodeKByte, KByteForm.wf, decode_26, decodeX6, read1, read2, read3]
  | a19 => simp [encodeKByte, decode_C4, decodeX4, AluOp.ofK, read3]
  | a20 => simp [encodeKByte, decode_C5, decodeX5, AluOp.ofK, read3]
  | a21 => simp_all [encodeKByte, KByteForm.wf, decode_73, decodeX3, AluOp.ofK, decode73, read2, unlessFlag]
  | a22 => simp_all [encodeKByte, KByteForm.wf, decode_F3, decodeX3, AluOp.ofK, read2, unlessFlag]
  | a23 => simp [encodeKByte, decode_2F, decodeXF, read1, read3, nibFlag]

/-- Decoding reads a word form W7 to W26 up to its K nibble, whatever the nibble: what the nibble selects is left
to `decodeAldw`. -/
theorem decode_encodeKWord (k : BitVec 4) {f : KWordForm} (hf : f.wf = true) (rest : List Byte) :
    decode (encodeKWord k f ++ rest) = decodeAldw k f rest := by
  cases f with
  | w7 => simp_all [encodeKWord, KWordForm.wf, decode_96, decodeX6, read2, unlessFlag]
  | w8 => simp_all [encodeKWord, KWordForm.wf, decode_A6, decodeX6, read2, unlessFlag]
  | w9 => simp_all [encodeKWord, KWordForm.wf, decode_7E, decodeXE, AluOp.ofK, read2, unlessFlag]
  | w10 | w11 => simp_all [encodeKWord, KWordForm.wf, decode_D5, decodeX5, AluOp.ofK, read2, unlessFlag]
  | w12 | w13 => simp_all [encodeKWord, KWordForm.wf, decode_C3, decodeX3, AluOp.ofK, read2, unlessFlag]
  | w14 | w15 => simp_all [encodeKWord, KWordForm.wf, decode_60, decodeX0, decode60, read2, unlessFlag]
  | w16 | w17 | w18 | w19 =>
    simp_all [encodeKWord, KWordForm.wf, decode_86, decodeX6, decode86, read1, read2, read3]
  | w20 | w21 => simp_all [encodeKWord, KWordForm.wf, decode_E2, decodeX2, AluOp.ofK, read3]
  | w22 | w23 => simp_all [encodeKWord, KWordForm.wf, decode_BE, decodeXE, AluOp.ofK, read1, read2, unlessFlag]
  | w24 | w25 => simp_all [encodeKWord, KWordForm.wf, decode_06, decodeX6, read1, read3, read4]
  | w26 => simp [encodeKWord, decode_36, decodeX6, read1, read4, nibFlag]

/-! ### Operand forms -/

theorem decode_encodeAluByte (op : AluOp) {f : AluByteForm} (hf : f.wf = true) (rest : List Byte) :
    decode (encodeAluByte op f ++ rest) = .ok (Instr.ofAluByte op f, rest) := by
  cases f with
  | a1 => simp [encodeAluByte, decode_nib_2, decodeX2, take1, read1]
  | a2 => simp [encodeAluByte, decode_nib_3, decodeX3, take1, read1]
  | a3 => simp [encodeAluByte, decode_nib_4, decodeX4, take2, read2]
  | a4 => simp [encodeAluByte, decode_nib_5, decodeX5, take2, read2]
  | k f => exact (decode_encodeKByte op.k hf rest).trans (decodeAld_k op f rest)

theorem decode_encodeAluWord (op : AluOp) {f : AluWordForm} (hf : f.wf = true) (rest : List Byte) :
    decode (encodeAluWord op f ++ rest) = .ok (Instr.ofAluWord op f, rest) := by
  cases f with
  | w1 | w2 | w3 | w4 => simp_all [encodeAluWord, AluWordForm.wf, decode_nib_E, decodeXE, take1, read1]
  | w5 | w6 =>
    simp_all [encodeAluWord, AluWordForm.wf, decode_nib_7, decodeX7, take2, read1, read2, unlessFlag]
  | k f => exact (decode_encodeKWord op.k hf rest).trans (decodeAldw_k op f rest)

theorem decode_encodeLd {f : LdForm} (hf : f.wf = true) (rest : List Byte) :
    decode (encodeLd f ++ rest) = .ok (.ld f, rest) := by
  cases f with
  | x8 => simp [encodeLd, decode_nib_8]
  | x9 => simp [encodeLd, decode_nib_9]
  | xC => simp [encodeLd, decode_nib_C]
  | e4 => simp [encodeLd, decode_E4, decodeX4, AluOp.ofK, take1, read1]
  | e5 => simp [encodeLd, decode_E5, decodeX5, AluOp.ofK, take1, read1]
  | b2 => simp [encodeLd, decode_B2, decodeX2, AluOp.ofK, take2, read2]
  | b3 => simp [encodeLd, decode_B3, decodeX3, AluOp.ofK, take2, read2]
  | f4 | f5 => rfl
  | b5Load | b5Store => simp_all [encodeLd, LdForm.wf, decode_B5, decodeX5, AluOp.ofK, take1, read1]
  | d7Load | d7Store => simp_all [encodeLd, LdForm.wf, decode_D7, decodeX7, AluOp.ofK, take1, read1]
  | k f => exact decode_encodeKByte 0xF hf rest

theorem decode_encodeLdw {f : LdwForm} (hf : f.wf = true) (rest : List Byte) :
    decode (encodeLdw f ++ rest) = .ok (.ldw f, rest) := by
  cases f with
  | e3 | e3Load | e3Store | e3Move =>
    simp_all [encodeLdw, LdwForm.wf, decode_E3, decodeX3, AluOp.ofK, take1, read1]
  | ef => simp_all [encodeLdw, LdwForm.wf, decode_EF, decodeXF, read1, unlessFlag]
  | bf => simp_all [encodeLdw, LdwForm.wf, decode_BF, decodeXF, take2, read1, read2]
  | deStore | deLoad => simp_all [encodeLdw, LdwForm.wf, decode_DE, decodeXE, AluOp.ofK, take2, read2]
  | k f => exact decode_encodeKWord 0xF hf rest

/-! ### Bit operands, stack operands, targets and register pointers -/

/-- The two-bit instructions of first bytes 0F, 1F and 6F. -/
theorem decode_encodeBits {first : Byte} {plainFlag : Bool}
    {two : BitSource → BitVec 3 → WReg → BitVec 3 → WReg → Instr} {one : BitVec 3 → WReg → Instr}
    (hfirst : ∀ bs, decode (first :: bs) = decodeBits plainFlag two one bs) (src : BitSource) (bd : BitVec 3)
    (rd : WReg) (bs : BitVec 3) (rs : WReg) (rest : List Byte) :
    decode (encodeBits first plainFlag src bd rd bs rs ++ rest) = .ok (two src bd rd bs rs, rest) := by
  cases src <;> simp [encodeBits, hfirst, decodeBits, take1, read1]

/-- The one-bit instruction that shares its first byte with a two-bit instruction. -/
theorem decode_oneBit {first : Byte} {plainFlag : Bool}
    {two : BitSource → BitVec 3 → WReg → BitVec 3 → WReg → Instr} {one : BitVec 3 → WReg → Instr}
    (hfirst : ∀ bs, decode (first :: bs) = decodeBits plainFlag two one bs) (b : BitVec 3) (rd : WReg)
    (rest : List Byte) : decode ([first, bitByte b false rd] ++ rest) = .ok (one b rd, rest) := by
  simp [hfirst, decodeBits, read1]

theorem decode_encodeBld (src : BitSource) (bd : BitVec 3) (rd : WReg) (bs : BitVec 3) (rs : WReg)
    (rest : List Byte) : decode (encodeBld src bd rd bs rs ++ rest) = .ok (.bld src bd rd bs rs, rest) := by
  cases src <;> simp [encodeBld, decode_F2, decodeX2, AluOp.ofK, take1, read1]

@[simp] theorem byteFlag_bitByte (b : BitVec 3) (f : Bool) (r : WReg) : byteFlag (bitByte b f r) = nibFlag r := by
  revert b f r; decide

theorem decode_encodeBtset {f : BtsetForm} (hf : f.wf = true) (rest : List Byte) :
    decode (encodeBtset f ++ rest) = .ok (.btset f, rest) := by
  cases f with
  | reg => simp [encodeBtset, decode_F2, decodeX2, AluOp.ofK, read1]
  | mem b rr =>
    have hflag : nibFlag rr = false := nibFlag_of_wf hf
    have hrets : bitByte b false rr ≠ 0x01#8 := ne_of_apply_ne byteFlag (by rw [byteFlag_bitByte, hflag]; decide)
    simp [encodeBtset, decode_F6, decodeX6, read1, hrets, hflag]

theorem decode_encodePea {ext : Byte} {i : PeaForm → Instr}
    (hext : ∀ bs, decode (0x8F :: ext :: bs) = decodePea bs i) {f : PeaForm} (hf : f.wf = true)
    (rest : List Byte) : decode (encodePea ext f ++ rest) = .ok (i f, rest) := by
  cases f with
  | short | long => simp_all [encodePea, PeaForm.wf, decodePea, take1, take2, read1, read2]

theorem decode_encodeCall {f : CallForm} (hf : f.wf = true) (rest : List Byte) :
    decode (encodeCall f ++ rest) = .ok (.call f, rest) := by
  cases f with
  | direct => simp [encodeCall, decode_D2, decodeX2, AluOp.ofK, take2, read2]
  | indirect => simp_all [encodeCall, CallForm.wf, decode_74, decodeX4, AluOp.ofK, take1, read1]

@[simp] theorem extractLsb'_top (top : BitVec 2) (seg : BitVec 6) : (top ++ seg).extractLsb' 6 2 = top := by
  revert top seg; decide

@[simp] theorem extractLsb'_seg (top : BitVec 2) (seg : BitVec 6) : (top ++ seg).extractLsb' 0 6 = seg := by
  revert top seg; decide

theorem decode_encodeFar_jps {f : FarForm} (hf : f.wf = true) (rest : List Byte) :
    decode (encodeFar 0b11 0xC f ++ rest) = .ok (.jps f, rest) := by
  cases f with
  | direct => simp [encodeFar, decode_3F, decodeXF, decode3F, read3]
  | indirect => simp_all [encodeFar, FarForm.wf, decode_73, decodeX3, AluOp.ofK, decode73, read2]

theorem decode_encodeFar_calls {f : FarForm} (hf : f.wf = true) (rest : List Byte) :
    decode (encodeFar 0b01 0x4 f ++ rest) = .ok (.calls f, rest) := by
  cases f with
  | direct => simp [encodeFar, decode_3F, decodeXF, decode3F, read3]
  | indirect => simp_all [encodeFar, FarForm.wf, decode_73, decodeX3, AluOp.ofK, decode73, read2]

/-- The second byte of SPP: its two low bits stand below the page, so its three low bits hold a bit of the page. -/
theorem extractLsb'_spp : ∀ pg : BitVec 6, (pg ++ 0b10#2).extractLsb' 2 6 = pg ∧
    ((pg ++ 0b10#2).extractLsb' 0 3 = 0b010#3 ∨ (pg ++ 0b10#2).extractLsb' 0 3 = 0b110#3) := by decide

@[simp] theorem extractLsb'_group (g : BitVec 5) (sel : BitVec 3) : (g ++ sel).extractLsb' 3 5 = g := by
  revert g sel; decide

@[simp] theorem extractLsb'_select (g : BitVec 5) (sel : BitVec 3) : (g ++ sel).extractLsb' 0 3 = sel := by
  revert g sel; decide

theorem decode_spp (pg : BitVec 6) (rest : List Byte) :
    decode (encode (.spp pg) ++ rest) = .ok (.spp pg, rest) := by
  obtain ⟨hpage, hselect | hselect⟩ := extractLsb'_spp pg <;>
    simp [encode, decode_C7, decodeX7, AluOp.ofK, decodeC7, read1, hpage, hselect]

theorem decode_encodePushw {f : PushWordForm} (hf : f.wf = true) (rest : List Byte) :
    decode (encodePushw f ++ rest) = .ok (.pushw f, rest) := by
  cases f with
  | pair => simp_all [encodePushw, PushWordForm.wf, decode_74, decodeX4, AluOp.ofK, take1, read1]
  | imm nn => simp [encodePushw, decode_8F, decodeXF, decode8F, take2, read1, read2, byteFlag]

theorem decode_encodePushuw {f : PushWordForm} (hf : f.wf = true) (rest : List Byte) :
    decode (encodePushuw f ++ rest) = .ok (.pushuw f, rest) := by
  cases f with
  | pair => simp_all [encodePushuw, PushWordForm.wf, decode_B6, decodeX6, read1]
  | imm nn => simp [encodePushuw, decode_8F, decodeXF, decode8F, take2, read1, read2, byteFlag]

/-! ### Every instruction -/

/-- Settles O1: one case for each instruction, grouped by operand form or by first byte. -/
theorem decodeInvertsEncode : Obligations.DecodeInvertsEncode := by
  intro i rest hwf
  cases i with
  | or | and | sbc | adc | add | sub | xor | tcm | cp | tm => exact decode_encodeAluByte _ hwf rest
  | orw | andw | sbcw | adcw | addw | subw | xorw | tcmw | cpw | tmw => exact decode_encodeAluWord _ hwf rest
  | ld => exact decode_encodeLd hwf rest
  | ldw => exact decode_encodeLdw hwf rest
  | ldpp | lddp | ldpd | lddd =>
    simp_all [encode, Instr.wf, decode_D6, decodeX6, take1, read1]
  | inc t | dec t | clr t | cpl t | swap t | da t | rlc t | rrc t | rol t | ror t | sra t | popu t | pop t =>
    cases t <;> rfl
  | incw | decw | rlcw | sraw =>
    simp_all [encode, Instr.wf, decode_DF, decode_CF, decode_8F, decode_2F, decodeXF, decode8F, read1, unlessFlag]
  | rrcw => simp_all [encode, Instr.wf, decode_36, decodeX6, read1]
  | push f | pushu f => rcases f with ⟨_ | _⟩ | _ <;> rfl
  | pushw => exact decode_encodePushw hwf rest
  | pushuw => exact decode_encodePushuw hwf rest
  | popw | unlink => simp_all [encode, Instr.wf, decode_75, decodeX5, AluOp.ofK, take1, read1]
  | popuw | unlinku => simp_all [encode, Instr.wf, decode_B7, decodeX7, AluOp.ofK, take1, read1]
  | pea | peau => exact decode_encodePea (fun _ => rfl) hwf rest
  | link | jp => simp_all [encode, Instr.wf, decode_D4, decodeX4, AluOp.ofK, take1, read1]
  | linku => simp_all [encode, Instr.wf, decode_B6, decodeX6, take1, read1]
  | mul | div => simp_all [encode, Instr.wf, decode_4F, decode_5F, decodeXF, read1, unlessFlag]
  | divws => simp_all [encode, Instr.wf, decode_56, decodeX6, read2, unlessFlag]
  | band | bor | bxor => exact decode_encodeBits (fun _ => rfl) ..
  | bset | bres | bcpl => exact decode_oneBit (fun _ => rfl) ..
  | bld => exact decode_encodeBld ..
  | btset => exact decode_encodeBtset hwf rest
  | btjf | btjt => simp [encode, decode_AF, decodeXF, take2, read2]
  | jpf nn | jplt nn | jple nn | jpule nn | jpov nn | jpmi nn | jpeq nn | jpult nn | jpt nn | jpge nn | jpgt nn
  | jpugt nn | jpnov nn | jppl nn | jpne nn | jpuge nn =>
    simp [encode, decode, loNib, hiNib, Instr.ofJp, take2, read1, read2]
  | jrf | jrlt | jrle | jrule | jrov | jrmi | jreq | jrult | jrt | jrge | jrgt | jrugt | jrnov | jrpl | jrne
  | jruge => rfl
  | jps => exact decode_encodeFar_jps hwf rest
  | call => exact decode_encodeCall hwf rest
  | calls => exact decode_encodeFar_calls hwf rest
  | djnz => simp [encode, decode_nib_A]
  | dwjnz | ext => simp_all [encode, Instr.wf, decode_C6, decodeX6, take1, read1]
  | cpjfi | cpjti => simp_all [encode, Instr.wf, decode_9F, decodeXF, take2, read2]
  | srp | srp0 | srp1 =>
    simp [encode, decode_C7, decodeX7, AluOp.ofK, decodeC7, read1]
  | spp pg => exact decode_spp pg rest
  | xch | ret | rets | iret | ei | di | scf | rcf | ccf | spm | sdm | nop | wfi | halt | etrap | eret => rfl

end Sys2Proof
end

section
/-! SUPPORT. Encoding what the decoder reads (spec/30_encoding.md R103 to R122): for each rule of the decoder, its
answer is a well-formed instruction whose bytes are those it has read. -/

namespace Sys2Proof

/-! ### Fields of a byte, put together again -/

/-- A byte of two literal nibbles. -/
theorem nib_ofNat (h l : Nat) :
    nib (BitVec.ofNat 4 h) (BitVec.ofNat 4 l) = BitVec.ofNat 8 (16 * (h % 16) + l % 16) := by
  apply BitVec.eq_of_toNat_eq
  rw [nib, Machine.toNat_append_eq_add, BitVec.toNat_ofNat, BitVec.toNat_ofNat, BitVec.toNat_ofNat]
  omega

theorem nib_of_loNib {b : Byte} {l : BitVec 4} (h : loNib b = l) : nib (hiNib b) l = b :=
  h ▸ nib_hiNib_loNib b

theorem nibFlag_loNib (b : Byte) : nibFlag (loNib b) = byteFlag b := by
  revert b; decide

theorem bitByte_of_bitFlag {b : Byte} {f : Bool} (h : bitFlag b = f) : bitByte (bitNum b) f (loNib b) = b :=
  h ▸ bitByte_fields b

theorem top_append_seg {b : Byte} {top : BitVec 2} (h : b.extractLsb' 6 2 = top) :
    top ++ b.extractLsb' 0 6 = b := by
  subst h; revert b; decide

theorem group_append_select {b : Byte} {sel : BitVec 3} (h : b.extractLsb' 0 3 = sel) :
    b.extractLsb' 3 5 ++ sel = b := by
  subst h; revert b; decide

theorem page_append_select {b : Byte} (h : b.extractLsb' 0 3 = 0b010#3 ∨ b.extractLsb' 0 3 = 0b110#3) :
    b.extractLsb' 2 6 ++ 0b10#2 = b := by
  revert b; decide

/-- The nibbles that R100 leaves out are those of the other rows of R106 to R111 and R118. -/
theorem AluOp.ofK_eq_none_iff (k : BitVec 4) : AluOp.ofK k = none ↔
    k = 0x7 ∨ k = 0xB ∨ k = 0xC ∨ k = 0xD ∨ k = 0xE ∨ k = 0xF := by
  revert k; decide

theorem exists_nib (b : Byte) : ∃ h l, b = nib h l := ⟨hiNib b, loNib b, (nib_hiNib_loNib b).symm⟩

/-! ### What the parts of the decoder keep -/

/-- Whatever `d` answers, when it reads `bs` after the bytes `done`, is a well-formed instruction whose bytes,
followed by those it leaves, are all of these. -/
def ReadsBack (done : List Byte) (d : Decoded) (bs : List Byte) : Prop :=
  ∀ i rest, d = .ok (i, rest) → encode i ++ rest = done ++ bs ∧ i.wf = true

namespace ReadsBack

variable {done bs rest : List Byte} {d d' : Decoded} {i i' : Instr} {c : Bool} {k : BitVec 4}

theorem ok (hbytes : encode i = done) (hwf : i.wf = true) : ReadsBack done (.ok (i, rest)) rest := by
  rintro _ _ ⟨⟩
  exact ⟨congrArg (· ++ rest) hbytes, hwf⟩

theorem error (e : DecodeError) : ReadsBack done (.error e) bs := nofun

/-- Bytes that have been read join those before them. -/
theorem of_append {read : List Byte} (h : ReadsBack (done ++ read) d rest) : ReadsBack done d (read ++ rest) :=
  fun i rest' hd => by rw [← List.append_assoc]; exact h i rest' hd

theorem read1 {k : Byte → List Byte → Decoded} (h : ∀ a rest, ReadsBack (done ++ [a]) (k a rest) rest) :
    ReadsBack done (read1 bs k) bs := by
  match bs with
  | a :: rest => exact of_append (h a rest)
  | [] => exact error _

theorem read2 {k : Byte → Byte → List Byte → Decoded}
    (h : ∀ a b rest, ReadsBack (done ++ [a, b]) (k a b rest) rest) : ReadsBack done (read2 bs k) bs := by
  match bs with
  | a :: b :: rest => exact of_append (h a b rest)
  | [] | [_] => exact error _

theorem read3 {k : Byte → Byte → Byte → List Byte → Decoded}
    (h : ∀ a b c rest, ReadsBack (done ++ [a, b, c]) (k a b c rest) rest) : ReadsBack done (read3 bs k) bs := by
  match bs with
  | a :: b :: c :: rest => exact of_append (h a b c rest)
  | [] | [_] | [_, _] => exact error _

theorem read4 {k : Byte → Byte → Byte → Byte → List Byte → Decoded}
    (h : ∀ a b c d rest, ReadsBack (done ++ [a, b, c, d]) (k a b c d rest) rest) :
    ReadsBack done (read4 bs k) bs := by
  match bs with
  | a :: b :: c :: d :: rest => exact of_append (h a b c d rest)
  | [] | [_] | [_, _] | [_, _, _] => exact error _

theorem take1 {i : Byte → Instr} (h : ∀ a rest, ReadsBack (done ++ [a]) (.ok (i a, rest)) rest) :
    ReadsBack done (take1 bs i) bs :=
  read1 h

theorem take2 {i : Byte → Byte → Instr} (h : ∀ a b rest, ReadsBack (done ++ [a, b]) (.ok (i a b, rest)) rest) :
    ReadsBack done (take2 bs i) bs :=
  read2 h

theorem ite {p : Prop} [Decidable p] (h : p → ReadsBack done d bs) (h' : ¬p → ReadsBack done d' bs) :
    ReadsBack done (if p then d else d') bs := by
  split
  · exact h ‹p›
  · exact h' ‹¬p›

theorem ifFlag (h : c = true → ReadsBack done d bs) (h' : c = false → ReadsBack done d' bs) :
    ReadsBack done (if c then d else d') bs :=
  ite h fun hc => h' (Bool.eq_false_of_not_eq_true hc)

/-- A flag that selects between two instructions. -/
theorem okIfFlag (h : c = true → ReadsBack done (.ok (i, rest)) bs)
    (h' : c = false → ReadsBack done (.ok (i', rest)) bs) : ReadsBack done (.ok (if c then i else i', rest)) bs := by
  cases c
  · exact h' rfl
  · exact h rfl

theorem unlessFlag (h : c = false → ReadsBack done d bs) : ReadsBack done (unlessFlag c d) bs :=
  ifFlag (fun _ => error _) h

/-- The K nibble selects LD or an operation, and the instruction holds that nibble (30_encoding.md R120). -/
theorem ald {f : KByteForm} (hbytes : encodeKByte k f = done) (hwf : f.wf = true) :
    ReadsBack done (decodeAld k f rest) rest := by
  unfold decodeAld
  split
  · next hk => subst hk; exact ok hbytes hwf
  · split
    · next op hop =>
      obtain rfl := AluOp.k_of_ofK hop
      exact ok (by rw [encode_ofAluByte]; exact hbytes) ((wf_ofAluByte op _).trans hwf)
    · exact error _

theorem aldw {f : KWordForm} (hbytes : encodeKWord k f = done) (hwf : f.wf = true) :
    ReadsBack done (decodeAldw k f rest) rest := by
  unfold decodeAldw
  split
  · next hk => subst hk; exact ok hbytes hwf
  · split
    · next op hop =>
      obtain rfl := AluOp.k_of_ofK hop
      exact ok (by rw [encode_ofAluWord]; exact hbytes) ((wf_ofAluWord op _).trans hwf)
    · exact error _

theorem aluByte {op : AluOp} {f : AluByteForm} (hbytes : encodeAluByte op f = done) (hwf : f.wf = true) :
    ReadsBack done (.ok (.ofAluByte op f, rest)) rest :=
  ok (by rwa [encode_ofAluByte]) ((wf_ofAluByte op f).trans hwf)

theorem aluWord {op : AluOp} {f : AluWordForm} (hbytes : encodeAluWord op f = done) (hwf : f.wf = true) :
    ReadsBack done (.ok (.ofAluWord op f, rest)) rest :=
  ok (by rwa [encode_ofAluWord]) ((wf_ofAluWord op f).trans hwf)

/-! ### First bytes x0 and x1 (30_encoding.md R104, R105) -/

theorem decode60 (bs : List Byte) : ReadsBack [0x60] (decode60 bs) bs := by
  refine read2 fun b2 b3 rest => ?_
  split
  · next hhi hlo =>
    exact ald (by simp [encodeKByte, nibSet_nibPair hhi, WPair.wf_of_nibFlag hlo]) (by simp [KByteForm.wf, nibPair_wf])
  · next hhi hlo =>
    exact ald (by simp [encodeKByte, nibSet_nibPair hhi, nibSet_nibPair hlo]) (by simp [KByteForm.wf, nibPair_wf])
  · next hhi hlo =>
    exact unlessFlag fun h3 => aldw (by simp [encodeKWord, WPair.wf_of_nibFlag, hhi, hlo])
      (by simp [KWordForm.wf, nibPair_wf, WPair.wf_of_nibFlag h3])
  · next hhi hlo =>
    exact unlessFlag fun h3 => aldw (by simp [encodeKWord, WPair.wf_of_nibFlag hhi, nibSet_nibPair hlo])
      (by simp [KWordForm.wf, nibPair_wf, WPair.wf_of_nibFlag h3])

theorem decodeX0 (h : BitVec 4) (bs : List Byte) : ReadsBack [nib h 0x0] (decodeX0 h bs) bs := by
  unfold Sys2Proof.decodeX0
  split
  case h_1 | h_2 => exact ok rfl rfl
  case h_7 => exact decode60 bs
  case h_16 =>
    obtain rfl : h = 0xF#4 := by revert h; decide
    exact take1 fun _ _ => ok rfl rfl
  all_goals exact take1 fun _ _ => ok rfl rfl

theorem decodeX1 (h : BitVec 4) (bs : List Byte) : ReadsBack [nib h 0x1] (decodeX1 h bs) bs := by
  unfold Sys2Proof.decodeX1
  split
  case h_1 | h_2 | h_7 => exact ok rfl rfl
  case h_16 =>
    obtain rfl : h = 0xF#4 := by revert h; decide
    exact take1 fun _ _ => ok rfl rfl
  all_goals exact take1 fun _ _ => ok rfl rfl

/-! ### First bytes x2 and x3 (30_encoding.md R106, R107) -/

theorem decodeX2 (h : BitVec 4) (bs : List Byte) : ReadsBack [nib h 0x2] (decodeX2 h bs) bs := by
  unfold Sys2Proof.decodeX2
  split
  · next op hop =>
    obtain rfl := AluOp.k_of_ofK hop
    exact take1 fun b2 rest => aluByte (by simp [encodeAluByte]) rfl
  · next hop =>
    split
    · exact read2 fun b2 b3 rest => ifFlag
        (fun hb => ald (by simp [encodeKByte, nib_ofNat, nibSet_nibPair hb]) (nibPair_wf _))
        (fun hb => ald (by simp [encodeKByte, nib_ofNat]) (WPair.wf_of_nibFlag hb))
    · exact take2 fun b2 n rest => ok (by simp [encode, encodeLd, nib_ofNat]) rfl
    · exact read2 fun b2 b3 rest => ifFlag
        (fun hb => ald (by simp [encodeKByte, nib_ofNat, nibSet_nibPair hb]) (nibPair_wf _))
        (fun hb => ald (by simp [encodeKByte, nib_ofNat]) (WPair.wf_of_nibFlag hb))
    · exact take2 fun nh nl rest => ok (by simp [encode, encodeCall, nib_ofNat]) rfl
    · exact read3 fun b2 nh nl rest => ifFlag
        (fun hb => aldw (by simp [encodeKWord, nib_ofNat, nibSet_nibPair hb]) (nibPair_wf _))
        (fun hb => aldw (by simp [encodeKWord, nib_ofNat]) (WPair.wf_of_nibFlag hb))
    · obtain rfl : h = 0xF#4 := by simp_all [AluOp.ofK_eq_none_iff]
      refine read1 fun b2 rest => ifFlag (fun hb => take1 fun b3 rest => ?_) (fun hb => ok ?_ rfl)
      · cases hsrc : bitFlag b3 <;>
          exact ok (by simp [encode, encodeBld, nib_ofNat, bitByte_of_bitFlag hb, bitByte_of_bitFlag hsrc]) rfl
      · simp [encode, encodeBtset, nib_ofNat, bitByte_of_bitFlag hb]

theorem decode73 (bs : List Byte) : ReadsBack [0x73] (decode73 bs) bs := by
  refine read2 fun b2 b3 rest => ifFlag (fun hb => ?_) (fun hb => unlessFlag fun h3 => ald ?_ ?_)
  · split
    · next hk => exact ok (by simp [encode, encodeFar, nibSet_nibPair hb, ← hk]) (nibPair_wf _)
    · next hk => exact ok (by simp [encode, encodeFar, nibSet_nibPair hb, ← hk]) (nibPair_wf _)
    · exact error _
  · simp [encodeKByte]
  · simp [KByteForm.wf, RegPair.wf_of_byteFlag h3, WPair.wf_of_nibFlag hb]

theorem decodeX3 (h : BitVec 4) (bs : List Byte) : ReadsBack [nib h 0x3] (decodeX3 h bs) bs := by
  unfold Sys2Proof.decodeX3
  split
  · next op hop =>
    obtain rfl := AluOp.k_of_ofK hop
    exact take1 fun b2 rest => aluByte (by simp [encodeAluByte]) rfl
  · next hop =>
    split
    · exact decode73 bs
    · exact take2 fun b2 n rest => ok (by simp [encode, encodeLd, nib_ofNat]) rfl
    · exact read2 fun b2 b3 rest => unlessFlag fun h3 => ifFlag
        (fun hb => aldw (by simp [encodeKWord, nib_ofNat, nibSet_nibPair hb])
          (by simp [KWordForm.wf, nibPair_wf, RegPair.wf_of_byteFlag h3]))
        (fun hb => aldw (by simp [encodeKWord, nib_ofNat])
          (by simp [KWordForm.wf, WPair.wf_of_nibFlag hb, RegPair.wf_of_byteFlag h3]))
    · exact ok rfl rfl
    · refine take1 fun b2 rest => ?_
      split
      · next hhi hlo =>
        exact ok (by simp [encode, encodeLdw, nib_ofNat])
          (by simp [Instr.wf, LdwForm.wf, WPair.wf_of_nibFlag, hhi, hlo])
      · next hhi hlo =>
        exact ok (by simp [encode, encodeLdw, nib_ofNat, nibSet_nibPair hhi])
          (by simp [Instr.wf, LdwForm.wf, nibPair_wf, WPair.wf_of_nibFlag hlo])
      · next hhi hlo =>
        exact ok (by simp [encode, encodeLdw, nib_ofNat, nibSet_nibPair hlo])
          (by simp [Instr.wf, LdwForm.wf, nibPair_wf, WPair.wf_of_nibFlag hhi])
      · next hhi hlo =>
        exact ok (by simp [encode, encodeLdw, nib_ofNat, nibSet_nibPair hhi, nibSet_nibPair hlo])
          (by simp [Instr.wf, LdwForm.wf, nibPair_wf])
    · obtain rfl : h = 0xF#4 := by simp_all [AluOp.ofK_eq_none_iff]
      exact read2 fun b2 n rest => unlessFlag fun hb =>
        ald (by simp [encodeKByte, nib_ofNat]) (WPair.wf_of_nibFlag hb)

/-! ### First bytes x4 and x5 (30_encoding.md R108, R109) -/

theorem decodeX4 (h : BitVec 4) (bs : List Byte) : ReadsBack [nib h 0x4] (decodeX4 h bs) bs := by
  unfold Sys2Proof.decodeX4
  split
  · next op hop =>
    obtain rfl := AluOp.k_of_ofK hop
    exact take2 fun rs rd rest => aluByte rfl rfl
  · next hop =>
    split
    · exact take1 fun b2 rest => okIfFlag
        (fun hb => ok (by simp [encode, encodeCall, nib_ofNat, byteSet_bytePair hb]) (bytePair_wf _))
        (fun hb => ok rfl (RegPair.wf_of_byteFlag hb))
    · exact read2 fun b2 b3 rest => ifFlag
        (fun hb => ald (by simp [encodeKByte, nib_ofNat, nibSet_nibPair hb]) (nibPair_wf _))
        (fun hb => ald (by simp [encodeKByte, nib_ofNat]) (WPair.wf_of_nibFlag hb))
    · exact read3 fun b2 nh nl rest => ald (by simp [encodeKByte, nib_ofNat]) rfl
    · exact read1 fun b2 rest => ifFlag
        (fun hb => take1 fun n rest => ok (by simp [encode, nib_ofNat, byteSet_bytePair hb]) (bytePair_wf _))
        (fun hb => ok rfl (RegPair.wf_of_byteFlag hb))
    · exact take1 fun b2 rest => ok (by simp [encode, encodeLd, nib_ofNat]) rfl
    · obtain rfl : h = 0xF#4 := by simp_all [AluOp.ofK_eq_none_iff]
      exact take2 fun rs rd rest => ok rfl rfl

theorem decodeX5 (h : BitVec 4) (bs : List Byte) : ReadsBack [nib h 0x5] (decodeX5 h bs) bs := by
  unfold Sys2Proof.decodeX5
  split
  · next op hop =>
    obtain rfl := AluOp.k_of_ofK hop
    exact take2 fun rd n rest => aluByte rfl rfl
  · next hop =>
    split
    · exact take1 fun b2 rest => okIfFlag
        (fun hb => ok (by simp [encode, nib_ofNat, byteSet_bytePair hb]) (bytePair_wf _))
        (fun hb => ok rfl (RegPair.wf_of_byteFlag hb))
    · exact take1 fun b2 rest => okIfFlag
        (fun hb => ok (by simp [encode, encodeLd, nib_ofNat, nibSet_nibPair hb]) (nibPair_wf _))
        (fun hb => ok (by simp [encode, encodeLd, nib_ofNat]) (WPair.wf_of_nibFlag hb))
    · exact read3 fun b2 nh nl rest => ald (by simp [encodeKByte, nib_ofNat]) rfl
    · exact read2 fun b2 b3 rest => unlessFlag fun h3 => ifFlag
        (fun hb => aldw (by simp [encodeKWord, nib_ofNat, nibSet_nibPair hb])
          (by simp [KWordForm.wf, nibPair_wf, RegPair.wf_of_byteFlag h3]))
        (fun hb => aldw (by simp [encodeKWord, nib_ofNat])
          (by simp [KWordForm.wf, WPair.wf_of_nibFlag hb, RegPair.wf_of_byteFlag h3]))
    · exact take1 fun b2 rest => ok (by simp [encode, encodeLd, nib_ofNat]) rfl
    · obtain rfl : h = 0xF#4 := by simp_all [AluOp.ofK_eq_none_iff]
      exact take2 fun rd n rest => ok rfl rfl

/-! ### First bytes x6 and x7 (30_encoding.md R110, R111) -/

theorem decode86 (bs : List Byte) : ReadsBack [0x86] (decode86 bs) bs := by
  refine read1 fun b2 rest => ifFlag (fun h2 => ?_) (fun h2 => ?_)
  · exact read2 fun n b rest => ifFlag
      (fun hb => aldw (by simp [encodeKWord, nibSet_nibPair h2, byteSet_bytePair hb])
        (by simp [KWordForm.wf, nibPair_wf, bytePair_wf]))
      (fun hb => aldw (by simp [encodeKWord, nibSet_nibPair h2])
        (by simp [KWordForm.wf, nibPair_wf, RegPair.wf_of_byteFlag hb]))
  · exact read3 fun nh nl b rest => ifFlag
      (fun hb => aldw (by simp [encodeKWord, byteSet_bytePair hb])
        (by simp [KWordForm.wf, WPair.wf_of_nibFlag h2, bytePair_wf]))
      (fun hb => aldw (by simp [encodeKWord])
        (by simp [KWordForm.wf, WPair.wf_of_nibFlag h2, RegPair.wf_of_byteFlag hb]))

theorem decodeX6 (h : BitVec 4) (bs : List Byte) : ReadsBack [nib h 0x6] (decodeX6 h bs) bs := by
  unfold Sys2Proof.decodeX6
  split
  case h_1 =>
    exact read1 fun b2 rest => ifFlag
      (fun hb => read3 fun n nh nl rest =>
        aldw (by simp [encodeKWord, nib_ofNat, nibSet_nibPair hb]) (nibPair_wf _))
      (fun hb => read4 fun oh ol nh nl rest =>
        aldw (by simp [encodeKWord, nib_ofNat]) (WPair.wf_of_nibFlag hb))
  case h_2 => exact take2 fun rs rd rest => ok rfl rfl
  case h_3 =>
    exact read1 fun b2 rest => ifFlag
      (fun hb => read2 fun n rs rest =>
        ald (by simp [encodeKByte, nib_ofNat, nibSet_nibPair hb]) (nibPair_wf _))
      (fun hb => read3 fun nh nl rs rest =>
        ald (by simp [encodeKByte, nib_ofNat]) (WPair.wf_of_nibFlag hb))
  case h_4 =>
    exact read1 fun b2 rest => ifFlag
      (fun _ => ite
        (fun hlo => read4 fun nh nl ah al rest => aldw (by simp [encodeKWord, nib_ofNat, nib_of_loNib hlo]) rfl)
        (fun _ => error _))
      (fun hb => ok rfl (RegPair.wf_of_byteFlag hb))
  case h_5 => exact ok rfl rfl
  case h_6 =>
    refine read2 fun b2 b3 rest => unlessFlag fun hflags => ?_
    obtain ⟨⟨h2, hhi⟩, hlo⟩ : (byteFlag b2 = false ∧ nibFlag (hiNib b3) = false) ∧ nibFlag (loNib b3) = false := by
      simpa using hflags
    exact ok (by simp [encode, nib_ofNat])
      (by simp [Instr.wf, RegPair.wf_of_byteFlag h2, WPair.wf_of_nibFlag hhi, WPair.wf_of_nibFlag hlo])
  case h_7 | h_8 => exact take1 fun r rest => ok rfl rfl
  case h_9 => exact decode86 bs
  case h_10 =>
    exact read2 fun b2 b3 rest => unlessFlag fun h2 =>
      aldw (by simp [encodeKWord, nib_ofNat]) (RegPair.wf_of_byteFlag h2)
  case h_11 =>
    exact read2 fun b2 b3 rest => unlessFlag fun h3 =>
      aldw (by simp [encodeKWord, nib_ofNat]) (RegPair.wf_of_byteFlag h3)
  case h_12 =>
    exact read1 fun b2 rest => ifFlag
      (fun hb => take1 fun n rest => ok (by simp [encode, nib_ofNat, byteSet_bytePair hb]) (bytePair_wf _))
      (fun hb => ok rfl (RegPair.wf_of_byteFlag hb))
  case h_13 =>
    exact read1 fun b2 rest => ifFlag
      (fun hb => ok (by simp [encode, nib_ofNat, byteSet_bytePair hb]) (bytePair_wf _))
      (fun hb => take1 fun n rest => ok rfl (RegPair.wf_of_byteFlag hb))
  case h_14 =>
    refine take1 fun b2 rest => ?_
    have hwf : (WPair.wf (nibPair (hiNib b2)) && WPair.wf (nibPair (loNib b2))) = true := by simp [nibPair_wf]
    split
    · next hhi hlo => exact ok (by simp [encode, nib_ofNat, WPair.wf_of_nibFlag, hhi, hlo]) hwf
    · next hhi hlo => exact ok (by simp [encode, nib_ofNat, nibSet_nibPair hhi, WPair.wf_of_nibFlag hlo]) hwf
    · next hhi hlo => exact ok (by simp [encode, nib_ofNat, WPair.wf_of_nibFlag hhi, nibSet_nibPair hlo]) hwf
    · next hhi hlo => exact ok (by simp [encode, nib_ofNat, nibSet_nibPair hhi, nibSet_nibPair hlo]) hwf
  case h_15 => exact read2 fun b2 b3 rest => ald (by simp [encodeKByte, nib_ofNat]) rfl
  case h_16 =>
    obtain rfl : h = 0xF#4 := by revert h; decide
    refine read1 fun b2 rest => ite (fun hrets => ok (by rw [hrets]; rfl) rfl) fun _ =>
      ifFlag (fun _ => error _) fun hflags => ?_
    obtain ⟨hlo, hbit⟩ : byteFlag b2 = false ∧ bitFlag b2 = false := by simpa using hflags
    exact ok (by simp [encode, encodeBtset, nib_ofNat, bitByte_of_bitFlag hbit])
      (WPair.wf_of_nibFlag ((nibFlag_loNib b2).trans hlo))

theorem decodeC7 (bs : List Byte) : ReadsBack [0xC7] (decodeC7 bs) bs := by
  refine read1 fun b2 rest => ?_
  split
  · next hsel => exact ok (by simp [encode, group_append_select hsel]) rfl
  · next hsel => exact ok (by simp [encode, group_append_select hsel]) rfl
  · next hsel => exact ok (by simp [encode, group_append_select hsel]) rfl
  · next hsel => exact ok (by simp [encode, page_append_select (.inl hsel)]) rfl
  · next hsel => exact ok (by simp [encode, page_append_select (.inr hsel)]) rfl
  · exact error _

theorem decodeX7 (h : BitVec 4) (bs : List Byte) : ReadsBack [nib h 0x7] (decodeX7 h bs) bs := by
  unfold Sys2Proof.decodeX7
  split
  · next op hop =>
    obtain rfl := AluOp.k_of_ofK hop
    exact read1 fun b2 rest => ifFlag
      (fun hb => take2 fun nh nl rest => aluWord (by simp [encodeAluWord, byteSet_bytePair hb]) (bytePair_wf _))
      (fun hb => read1 fun b3 rest => unlessFlag fun h3 => aluWord rfl
        (by simp [AluWordForm.wf, RegPair.wf_of_byteFlag hb, RegPair.wf_of_byteFlag h3]))
  · next hop =>
    split
    · exact take1 fun r rest => ok rfl rfl
    · exact take1 fun b2 rest => okIfFlag
        (fun hb => ok (by simp [encode, nib_ofNat, byteSet_bytePair hb]) (bytePair_wf _))
        (fun hb => ok rfl (RegPair.wf_of_byteFlag hb))
    · exact decodeC7 bs
    · exact take1 fun b2 rest => okIfFlag
        (fun hb => ok (by simp [encode, encodeLd, nib_ofNat, nibSet_nibPair hb]) (nibPair_wf _))
        (fun hb => ok (by simp [encode, encodeLd, nib_ofNat]) (WPair.wf_of_nibFlag hb))
    · exact read2 fun b2 rd rest => ald (by simp [encodeKByte, nib_ofNat]) rfl
    · obtain rfl : h = 0xF#4 := by simp_all [AluOp.ofK_eq_none_iff]
      exact take1 fun r rest => ok rfl rfl

/-! ### First bytes xB and xD (30_encoding.md R115, R117) -/

theorem jr (cc : BitVec 4) (n : Byte) (rest : List Byte) :
    ReadsBack [nib cc 0xB, n] (.ok (.ofJr cc n, rest)) rest := by
  unfold Instr.ofJr
  split
  case h_16 =>
    obtain rfl : cc = 0xF#4 := by revert cc; decide
    exact ok rfl rfl
  all_goals exact ok rfl rfl

theorem jp (cc : BitVec 4) (nh nl : Byte) (rest : List Byte) :
    ReadsBack [nib cc 0xD, nh, nl] (.ok (.ofJp cc (word nh nl), rest)) rest := by
  unfold Instr.ofJp
  split
  case h_16 =>
    obtain rfl : cc = 0xF#4 := by revert cc; decide
    exact ok (by simp [encode, nib_ofNat]) rfl
  all_goals exact ok (by simp [encode, nib_ofNat]) rfl

/-! ### First bytes xE (30_encoding.md R118) -/

theorem decodeXE (h : BitVec 4) (bs : List Byte) : ReadsBack [nib h 0xE] (decodeXE h bs) bs := by
  unfold Sys2Proof.decodeXE
  split
  · next op hop =>
    obtain rfl := AluOp.k_of_ofK hop
    refine take1 fun b2 rest => ?_
    split
    · next hhi hlo =>
      exact aluWord (by simp [encodeAluWord]) (by simp [AluWordForm.wf, WPair.wf_of_nibFlag, hhi, hlo])
    · next hhi hlo =>
      exact aluWord (by simp [encodeAluWord, nibSet_nibPair hhi])
        (by simp [AluWordForm.wf, nibPair_wf, WPair.wf_of_nibFlag hlo])
    · next hhi hlo =>
      exact aluWord (by simp [encodeAluWord, nibSet_nibPair hlo])
        (by simp [AluWordForm.wf, nibPair_wf, WPair.wf_of_nibFlag hhi])
    · next hhi hlo =>
      exact aluWord (by simp [encodeAluWord, nibSet_nibPair hhi, nibSet_nibPair hlo])
        (by simp [AluWordForm.wf, nibPair_wf])
  · next hop =>
    split
    · refine read2 fun b2 b3 rest => unlessFlag fun hflags => ?_
      obtain ⟨hb, h3⟩ : nibFlag (loNib b2) = false ∧ byteFlag b3 = false := by simpa using hflags
      exact aldw (by simp [encodeKWord, nib_ofNat])
        (by simp [KWordForm.wf, WPair.wf_of_nibFlag hb, RegPair.wf_of_byteFlag h3])
    · exact read1 fun b2 rest => ifFlag
        (fun hb => read1 fun b3 rest => unlessFlag fun h3 =>
          aldw (by simp [encodeKWord, nib_ofNat, nibSet_nibPair hb])
            (by simp [KWordForm.wf, nibPair_wf, RegPair.wf_of_byteFlag h3]))
        (fun hb => read2 fun nh nl rest => aldw (by simp [encodeKWord, nib_ofNat]) (WPair.wf_of_nibFlag hb))
    · exact ok rfl rfl
    · exact take2 fun b2 n rest => okIfFlag
        (fun hb => ok (by simp [encode, encodeLdw, nib_ofNat, nibSet_nibPair hb]) (nibPair_wf _))
        (fun hb => ok (by simp [encode, encodeLdw, nib_ofNat]) (WPair.wf_of_nibFlag hb))
    · exact ok rfl rfl
    · obtain rfl : h = 0xF#4 := by simp_all [AluOp.ofK_eq_none_iff]
      exact ok rfl rfl

/-! ### First bytes xF (30_encoding.md R119) -/

theorem decodeBits {first : Byte} {plainFlag : Bool} {two : BitSource → BitVec 3 → WReg → BitVec 3 → WReg → Instr}
    {one : BitVec 3 → WReg → Instr}
    (htwo : ∀ src bd rd bs rs, encode (two src bd rd bs rs) = encodeBits first plainFlag src bd rd bs rs)
    (htwoWf : ∀ src bd rd bs rs, (two src bd rd bs rs).wf = true)
    (hone : ∀ b rd, encode (one b rd) = [first, bitByte b false rd]) (honeWf : ∀ b rd, (one b rd).wf = true)
    (bs : List Byte) : ReadsBack [first] (decodeBits plainFlag two one bs) bs := by
  refine read1 fun b2 rest => ifFlag (fun hb => take1 fun b3 rest => ?_) (fun hb => ?_)
  · refine ok ?_ (htwoWf ..)
    rw [htwo]
    split
    · next hsrc => simp [encodeBits, bitByte_of_bitFlag hb, bitByte_of_bitFlag hsrc]
    · next hsrc => simp [encodeBits, bitByte_of_bitFlag hb, bitByte_of_bitFlag (Bool.eq_not_of_ne hsrc)]
  · exact ok (by simp [hone, bitByte_of_bitFlag hb]) (honeWf ..)

theorem decode3F (bs : List Byte) : ReadsBack [0x3F] (decode3F bs) bs := by
  refine read3 fun b2 nh nl rest => ?_
  split
  · next htop => exact ok (by simp [encode, encodeFar, top_append_seg htop]) rfl
  · next htop => exact ok (by simp [encode, encodeFar, top_append_seg htop]) rfl
  · exact error _

theorem decodePea {ext : Byte} {i : PeaForm → Instr} (hi : ∀ f, encode (i f) = encodePea ext f)
    (hwf : ∀ f, (i f).wf = f.wf) (bs : List Byte) : ReadsBack [0x8F, ext] (decodePea bs i) bs :=
  read1 fun b3 rest => ifFlag
    (fun hb => take2 fun nl nh rest =>
      ok (by simp [hi, encodePea, byteSet_bytePair hb]) ((hwf _).trans (bytePair_wf _)))
    (fun hb => take1 fun n rest => ok (by simp [hi, encodePea]) ((hwf _).trans (RegPair.wf_of_byteFlag hb)))

theorem decode8F (bs : List Byte) : ReadsBack [0x8F] (decode8F bs) bs := by
  refine read1 fun b2 rest => ifFlag (fun _ => ?_) (fun hb => ok rfl (RegPair.wf_of_byteFlag hb))
  split
  · exact take1 fun n rest => ok rfl rfl
  · exact take1 fun n rest => ok rfl rfl
  · exact take2 fun nh nl rest => ok (by simp [encode, encodePushw]) rfl
  · exact take2 fun nh nl rest => ok (by simp [encode, encodePushuw]) rfl
  · exact decodePea (fun _ => rfl) (fun _ => rfl) rest
  · exact decodePea (fun _ => rfl) (fun _ => rfl) rest
  · exact error _

theorem decodeXF (h : BitVec 4) (bs : List Byte) : ReadsBack [nib h 0xF] (decodeXF h bs) bs := by
  unfold Sys2Proof.decodeXF
  split
  case h_1 | h_2 | h_7 =>
    exact decodeBits (fun _ _ _ _ _ => rfl) (fun _ _ _ _ _ => rfl) (fun _ _ => rfl) (fun _ _ => rfl) bs
  case h_3 =>
    exact read1 fun b2 rest => ifFlag
      (fun _ => ite
        (fun hlo => read3 fun n nh nl rest => ald (by simp [encodeKByte, nib_ofNat, nib_of_loNib hlo]) rfl)
        (fun _ => error _))
      (fun hb => ok rfl (RegPair.wf_of_byteFlag hb))
  case h_4 => exact decode3F bs
  case h_5 | h_6 =>
    exact read1 fun b2 rest => unlessFlag fun hb => ok (by simp [encode, nib_ofNat]) (WPair.wf_of_nibFlag hb)
  case h_8 =>
    exact read1 fun b2 rest => ifFlag
      (fun hb => read2 fun n rd rest =>
        ald (by simp [encodeKByte, nib_ofNat, nibSet_nibPair hb]) (nibPair_wf _))
      (fun hb => read3 fun nh nl rd rest =>
        ald (by simp [encodeKByte, nib_ofNat]) (WPair.wf_of_nibFlag hb))
  case h_9 => exact decode8F bs
  case h_10 =>
    exact take2 fun b2 n rest => okIfFlag
      (fun hb => ok (by simp [encode, nib_ofNat, nibSet_nibPair hb]) (nibPair_wf _))
      (fun hb => ok (by simp [encode, nib_ofNat]) (WPair.wf_of_nibFlag hb))
  case h_11 =>
    exact take2 fun b2 n rest => okIfFlag
      (fun hb => ok (by simp [encode, nib_ofNat, bitByte_of_bitFlag hb]) rfl)
      (fun hb => ok (by simp [encode, nib_ofNat, bitByte_of_bitFlag hb]) rfl)
  case h_12 =>
    exact read1 fun b2 rest => ifFlag
      (fun _ => ite (fun hhalt => ok (by rw [hhalt]; rfl) rfl) (fun _ => error _))
      (fun hb => take2 fun nh nl rest =>
        ok (by simp [encode, encodeLdw, nib_ofNat]) (RegPair.wf_of_byteFlag hb))
  case h_13 | h_14 =>
    exact read1 fun b2 rest => unlessFlag fun hb => ok rfl (RegPair.wf_of_byteFlag hb)
  case h_15 =>
    exact read1 fun b2 rest => ifFlag
      (fun _ => ite (fun hwfi => ok (by rw [hwfi]; rfl) rfl)
        (fun _ => ite (fun heret => ok (by rw [heret]; rfl) rfl) (fun _ => error _)))
      (fun hb => read1 fun b3 rest => unlessFlag fun h3 => ok rfl
        (by simp [Instr.wf, LdwForm.wf, RegPair.wf_of_byteFlag hb, RegPair.wf_of_byteFlag h3]))
  case h_16 =>
    obtain rfl : h = 0xF#4 := by revert h; decide
    exact ok rfl rfl

/-! ### Every first byte (30_encoding.md R103) -/

theorem decode (bytes : List Byte) : ReadsBack [] (decode bytes) bytes := by
  refine read1 fun b1 bs => ?_
  obtain ⟨h, l, rfl⟩ := exists_nib b1
  rw [loNib_nib, hiNib_nib]
  split
  · exact decodeX0 h bs
  · exact decodeX1 h bs
  · exact decodeX2 h bs
  · exact decodeX3 h bs
  · exact decodeX4 h bs
  · exact decodeX5 h bs
  · exact decodeX6 h bs
  · exact decodeX7 h bs
  · exact take1 fun rs rest => ok rfl rfl
  · exact take1 fun rd rest => ok rfl rfl
  · exact take1 fun n rest => ok rfl rfl
  · exact take1 fun n rest => jr h n rest
  · exact take1 fun n rest => ok rfl rfl
  · exact take2 fun nh nl rest => jp h nh nl rest
  · exact decodeXE h bs
  · obtain rfl : l = 0xF#4 := by revert l; decide
    exact decodeXF h bs

end ReadsBack

/-- Settles O2: every rule of the decoder answers what it has read. -/
theorem encodeInvertsDecode : Obligations.EncodeInvertsDecode := ReadsBack.decode

end Sys2Proof
end

section
/-! SUPPORT. The reserved encodings (spec/30_encoding.md R100, R122). -/

namespace Sys2Proof

/-! ### K nibbles that R100 does not assign (30_encoding.md R122 item 1) -/

theorem decodeAld_of_ofK_eq_none {k : BitVec 4} (hF : k ≠ 0xF#4) (hk : AluOp.ofK k = none) (f : KByteForm)
    (rest : List Byte) : decodeAld k f rest = .error .reservedK := by
  rw [decodeAld, if_neg hF, hk]

theorem decodeAldw_of_ofK_eq_none {k : BitVec 4} (hF : k ≠ 0xF#4) (hk : AluOp.ofK k = none) (f : KWordForm)
    (rest : List Byte) : decodeAldw k f rest = .error .reservedK := by
  rw [decodeAldw, if_neg hF, hk]

/-- Settles O4: decoding reads each form up to its K nibble, and the nibble selects nothing. -/
theorem unassignedOperationNibbleIsReserved : Obligations.UnassignedOperationNibbleIsReserved := by
  intro k rest hk
  obtain ⟨hF, hnone⟩ : k ≠ 0xF#4 ∧ AluOp.ofK k = none := by revert k; decide
  exact ⟨fun f hf => (decode_encodeKByte k hf rest).trans (decodeAld_of_ofK_eq_none hF hnone f rest),
    fun f hf => (decode_encodeKWord k hf rest).trans (decodeAldw_of_ofK_eq_none hF hnone f rest)⟩

/-! ### Second bytes that Table 15 does not list (30_encoding.md R122 items 2 to 7) -/

section

variable {b c d : Byte} {rest : List Byte}

theorem decode_73_reserved (hflag : nibFlag (loNib b) = true) (h4 : hiNib b ≠ 0x4#4) (hC : hiNib b ≠ 0xC#4) :
    decode (0x73 :: b :: c :: rest) = .error .reservedK := by
  simp [decode_73, decodeX3, AluOp.ofK, decode73, read2, hflag]

theorem decode_2F_reserved (hflag : byteFlag b = true) (hlo : loNib b ≠ 0x1#4) :
    decode (0x2F :: b :: rest) = .error .reservedSecondByte := by
  simp [decode_2F, decodeXF, read1, hflag, hlo]

theorem decode_36_reserved (hflag : byteFlag b = true) (hlo : loNib b ≠ 0x1#4) :
    decode (0x36 :: b :: rest) = .error .reservedSecondByte := by
  simp [decode_36, decodeX6, read1, hflag, hlo]

theorem decode_3F_reserved (htop : b.extractLsb' 6 2 = 0b00#2 ∨ b.extractLsb' 6 2 = 0b10#2) :
    decode (0x3F :: b :: c :: d :: rest) = .error .reservedSecondByte := by
  rcases htop with htop | htop <;> simp [decode_3F, decodeXF, decode3F, read3, htop]

theorem decode_8F_reserved (hflag : byteFlag b = true) (h01 : b ≠ 0x01#8) (h03 : b ≠ 0x03#8) (hC1 : b ≠ 0xC1#8)
    (hC3 : b ≠ 0xC3#8) (hF1 : b ≠ 0xF1#8) (hF3 : b ≠ 0xF3#8) :
    decode (0x8F :: b :: rest) = .error .reservedSecondByte := by
  simp [decode_8F, decodeXF, decode8F, read1, hflag]

theorem decode_BF_reserved (hflag : byteFlag b = true) (h01 : b ≠ 0x01#8) :
    decode (0xBF :: b :: rest) = .error .reservedSecondByte := by
  simp [decode_BF, decodeXF, read1, hflag, h01]

theorem decode_EF_reserved (hflag : byteFlag b = true) (h01 : b ≠ 0x01#8) (h31 : b ≠ 0x31#8) :
    decode (0xEF :: b :: rest) = .error .reservedSecondByte := by
  simp [decode_EF, decodeXF, read1, hflag, h01, h31]

theorem decode_F6_reserved (h01 : b ≠ 0x01#8) (hflag : byteFlag b = true ∨ bitFlag b = true) :
    decode (0xF6 :: b :: rest) = .error .reservedSecondByte := by
  simp [decode_F6, decodeX6, read1, h01, hflag]

theorem decode_C7_reserved
    (hsel : b.extractLsb' 0 3 = 0b001#3 ∨ b.extractLsb' 0 3 = 0b011#3 ∨ b.extractLsb' 0 3 = 0b111#3) :
    decode (0xC7 :: b :: rest) = .error .reservedSecondByte := by
  rcases hsel with hsel | hsel | hsel <;> simp [decode_C7, decodeX7, AluOp.ofK, decodeC7, read1, hsel]

/-! ### Literal flag bits with the wrong value (30_encoding.md R122 item 8) -/

theorem nibFlag_hiNib (b : Byte) : nibFlag (hiNib b) = bitFlag b := by
  revert b; decide

theorem decode_CF_wrongFlag (h : byteFlag b = true) : decode (0xCF :: b :: rest) = .error .wrongFlagBit := by
  simp [decode_CF, decodeXF, read1, unlessFlag, h]

theorem decode_DF_wrongFlag (h : byteFlag b = true) : decode (0xDF :: b :: rest) = .error .wrongFlagBit := by
  simp [decode_DF, decodeXF, read1, unlessFlag, h]

theorem decode_96_wrongFlag (h : byteFlag b = true) : decode (0x96 :: b :: c :: rest) = .error .wrongFlagBit := by
  simp [decode_96, decodeX6, read2, unlessFlag, h]

theorem decode_7E_wrongFlag (h : byteFlag b = true ∨ byteFlag c = true) :
    decode (0x7E :: b :: c :: rest) = .error .wrongFlagBit := by
  simp [decode_7E, decodeXE, AluOp.ofK, read2, unlessFlag, nibFlag_loNib, h]

theorem decode_F3_wrongFlag (h : byteFlag b = true) : decode (0xF3 :: b :: c :: rest) = .error .wrongFlagBit := by
  simp [decode_F3, decodeX3, AluOp.ofK, read2, unlessFlag, nibFlag_loNib, h]

theorem decode_4F_wrongFlag (h : bitFlag b = true) : decode (0x4F :: b :: rest) = .error .wrongFlagBit := by
  simp [decode_4F, decodeXF, read1, unlessFlag, nibFlag_hiNib, h]

theorem decode_5F_wrongFlag (h : bitFlag b = true) : decode (0x5F :: b :: rest) = .error .wrongFlagBit := by
  simp [decode_5F, decodeXF, read1, unlessFlag, nibFlag_hiNib, h]

theorem decode_56_wrongFlag (h : byteFlag b = true ∨ bitFlag c = true ∨ byteFlag c = true) :
    decode (0x56 :: b :: c :: rest) = .error .wrongFlagBit := by
  simp [decode_56, decodeX6, read2, unlessFlag, nibFlag_hiNib, nibFlag_loNib, or_assoc, h]

theorem decode_EF_wrongFlag (hb : byteFlag b = false) (hc : byteFlag c = true) :
    decode (0xEF :: b :: c :: rest) = .error .wrongFlagBit := by
  simp [decode_EF, decodeXF, read1, unlessFlag, hb, hc]

theorem decode_73_wrongFlag (hb : byteFlag b = false) (hc : byteFlag c = true) :
    decode (0x73 :: b :: c :: rest) = .error .wrongFlagBit := by
  simp [decode_73, decodeX3, AluOp.ofK, decode73, read2, unlessFlag, nibFlag_loNib, hb, hc]

theorem decode_aluWord_wrongFlag (op : AluOp) (hb : byteFlag b = false) (hc : byteFlag c = true) :
    decode (nib op.k 0x7 :: b :: c :: rest) = .error .wrongFlagBit := by
  simp [decode_nib_7, decodeX7, read1, unlessFlag, hb, hc]

theorem decode_C3_wrongFlag (h : byteFlag c = true) : decode (0xC3 :: b :: c :: rest) = .error .wrongFlagBit := by
  simp [decode_C3, decodeX3, AluOp.ofK, read2, unlessFlag, h]

theorem decode_D5_wrongFlag (h : byteFlag c = true) : decode (0xD5 :: b :: c :: rest) = .error .wrongFlagBit := by
  simp [decode_D5, decodeX5, AluOp.ofK, read2, unlessFlag, h]

theorem decode_A6_wrongFlag (h : byteFlag c = true) : decode (0xA6 :: b :: c :: rest) = .error .wrongFlagBit := by
  simp [decode_A6, decodeX6, read2, unlessFlag, h]

theorem decode_BE_wrongFlag (hb : byteFlag b = true) (hc : byteFlag c = true) :
    decode (0xBE :: b :: c :: rest) = .error .wrongFlagBit := by
  simp [decode_BE, decodeXE, AluOp.ofK, read1, unlessFlag, nibFlag_loNib, hb, hc]

/-- The word forms of first byte 60 are those whose first pair has its flag bit clear. -/
theorem decode_60_wrongFlag (hb : bitFlag b = false) (hc : byteFlag c = true) :
    decode (0x60 :: b :: c :: rest) = .error .wrongFlagBit := by
  cases hlo : byteFlag b <;>
    simp [decode_60, decodeX0, decode60, read2, unlessFlag, nibFlag_hiNib, nibFlag_loNib, hb, hc, hlo]

end

/-- Settles O5: each clause is one first byte and one reason why its second or third byte is refused. -/
theorem unlistedPatternsAreReserved : Obligations.UnlistedPatternsAreReserved := by
  intro b c d rest
  exact ⟨
    fun hflag h4 hC => ⟨_, decode_73_reserved hflag h4 hC⟩,
    fun hflag hlo => ⟨⟨_, decode_2F_reserved hflag hlo⟩, ⟨_, decode_36_reserved hflag hlo⟩⟩,
    fun htop => ⟨_, decode_3F_reserved htop⟩,
    fun hflag h01 h03 hC1 hC3 hF1 hF3 => ⟨_, decode_8F_reserved hflag h01 h03 hC1 hC3 hF1 hF3⟩,
    fun hflag h01 => ⟨_, decode_BF_reserved hflag h01⟩,
    fun hflag h01 h31 => ⟨_, decode_EF_reserved hflag h01 h31⟩,
    fun h01 hflag => ⟨_, decode_F6_reserved h01 hflag⟩,
    fun hsel => ⟨_, decode_C7_reserved hsel⟩,
    fun hb => ⟨⟨_, decode_CF_wrongFlag hb⟩, ⟨_, decode_DF_wrongFlag hb⟩, ⟨_, decode_96_wrongFlag hb⟩,
      ⟨_, decode_7E_wrongFlag (.inl hb)⟩, ⟨_, decode_F3_wrongFlag hb⟩⟩,
    fun hb => ⟨⟨_, decode_4F_wrongFlag hb⟩, ⟨_, decode_5F_wrongFlag hb⟩⟩,
    fun hflags => ⟨_, decode_56_wrongFlag hflags⟩,
    fun hb hc => ⟨⟨_, decode_EF_wrongFlag hb hc⟩, ⟨_, decode_73_wrongFlag hb hc⟩,
      fun op => ⟨_, decode_aluWord_wrongFlag op hb hc⟩⟩,
    fun hc => ⟨⟨_, decode_7E_wrongFlag (.inr hc)⟩, ⟨_, decode_C3_wrongFlag hc⟩,
      ⟨_, decode_D5_wrongFlag hc⟩, ⟨_, decode_A6_wrongFlag hc⟩⟩,
    fun hb hc => ⟨_, decode_BE_wrongFlag hb hc⟩,
    fun hb hc => ⟨_, decode_60_wrongFlag hb hc⟩⟩

end Sys2Proof
end

section
/-! SUPPORT. A step of a running core and the bytes it fetches (spec/30_encoding.md R91, R103). -/

namespace Sys2Proof.Machine

theorem State.fetchBytes_length (s : State) (a : Word) (n : Nat) : (s.fetchBytes a n).length = n := by
  induction n generalizing a with
  | zero => rfl
  | succ n ih => rw [State.fetchBytes, List.length_cons, ih]

/-- What the environment answers does not reach the fetch. -/
theorem State.fetchBytes_answered (s : State) (a : Word) (n : Nat) :
    s.answered.fetchBytes a n = s.fetchBytes a n := by
  induction n generalizing a with
  | zero => rfl
  | succ n ih => rw [State.fetchBytes, State.fetchBytes, ih]; rfl

theorem State.fetchWindow_answered (s : State) : s.answered.fetchWindow = s.fetchWindow :=
  s.fetchBytes_answered s.pc Config.maxInstrBytes

theorem step_eq_runInstruction {s : State} (hrun : s.runState = .running) (hreset : s.boundary.reset = none)
    (hirq : s.answered.taken s.boundary.irq = none) : step s = runInstruction s.answered := by
  simp [step, stepAt, proceed, hreset, hirq, hrun]

/-- The bytes that a decoding uses up of the fetch window are those of the instruction it answers. -/
theorem encode_length_of_fetch {s : State} {i : Instr} {rest : List Byte}
    (h : decode s.fetchWindow = .ok (i, rest)) : Config.maxInstrBytes - rest.length = (encode i).length := by
  obtain ⟨hbytes, -⟩ := encodeInvertsDecode _ _ _ h
  have hlength : (encode i).length + rest.length = Config.maxInstrBytes := by
    rw [← List.length_append, hbytes, State.fetchWindow, State.fetchBytes_length]
  omega

/-- Settles O6: the pc moves past the bytes that the decoder used up, which are those of the instruction. -/
theorem stepRunsTheDecodedInstruction : Obligations.StepRunsTheDecodedInstruction := by
  intro s i rest hrun hreset hirq hdecode
  rw [step_eq_runInstruction hrun hreset hirq, runInstruction, State.fetchWindow_answered, hdecode,
    ← encode_length_of_fetch hdecode]

/-- Settles O7: the environment's answer leaves the pc and the fetched bytes as they were. -/
theorem stepStopsAtReservedEncoding : Obligations.StepStopsAtReservedEncoding := by
  intro s e hrun hreset hirq hdecode
  rw [step_eq_runInstruction hrun hreset hirq, runInstruction, State.fetchWindow_answered, hdecode,
    State.answered_pc]

end Sys2Proof.Machine
end

section
/-! SUPPORT. The loads of a byte and of a word, where every part of the operand form goes through (spec/40_load.md
R140 to R170, R176 to R199). -/

namespace Sys2Proof.Machine

/-- The parts of `dst <- src` in the order of R140: pre-decrement, locations, store, post-increments. -/
theorem loadByte_eq {f : LdForm} {s s1 s2 : State} (hstart : LdForm.startOk f s = true)
    (hs1 : s1 = LdForm.started f s) (hread : LdForm.readable f s1 = true)
    (hstore : s1.byteOk (LdForm.loc f s1) = true)
    (hs2 : s2 = s1.putByte (LdForm.loc f s1) (LdForm.value f s1)) (hfinish : LdForm.finishOk f s2 = true) :
    loadByte f s = .ok (LdForm.finished f s2) := by
  rw [loadByte, LdForm.pre_eq hstart, Res.bind_ok, ← hs1, LdForm.dst_eq hread, Res.bind_ok,
    LdForm.src_eq hread, Res.bind_ok, store8_eq _ hstore, Res.bind_ok, ← hs2, LdForm.post_eq hfinish]

/-- The parts of `dst <- src` for a word; the evenness of a pair address serves both the destination and the
source. -/
theorem loadWord_eq {f : LdwForm} {s s1 s2 : State} (hstart : LdwForm.startOk f s = true)
    (hs1 : s1 = LdwForm.started f s) (hread : LdwForm.readable f s1 = true) (heven : LdwForm.even f s1 = true)
    (hstore : s1.putWordOk (LdwForm.loc f s1) (LdwForm.value f s1) = true)
    (hs2 : s2 = s1.putWord (LdwForm.loc f s1) (LdwForm.value f s1)) (hfinish : LdwForm.finishOk f s2 = true) :
    loadWord f s = .ok (LdwForm.finished f s2) := by
  rw [loadWord, LdwForm.pre_eq hstart, Res.bind_ok, ← hs1, LdwForm.dst_eq hread heven, Res.bind_ok,
    LdwForm.src_eq hread heven, Res.bind_ok, store16_eq hstore, Res.bind_ok, ← hs2, LdwForm.post_eq hfinish]

/-- Settles O32: each part of the form answers what the tables say, and LD runs the parts in turn. -/
theorem ldCompletes : Obligations.LdCompletes := by
  intro f s s1 s2 hstart hs1 hread hstore hs2 hfinish
  rw [exec, execLd, loadByte_eq hstart hs1 hread hstore hs2 hfinish, Res.outcome_ok]

/-- Settles O33: each part of the form answers what the tables say, and LDW runs the parts in turn. -/
theorem ldwCompletes : Obligations.LdwCompletes := by
  intro f s s1 s2 hstart hs1 hread heven hstore hs2 hfinish
  rw [exec, execLdw, loadWord_eq hstart hs1 hread heven hstore hs2 hfinish, Res.outcome_ok]

end Sys2Proof.Machine
end

section
/-! SUPPORT. The values and flags of the two-operand operations, for bytes and for words at once (spec/41_alu2.md R204
to R206, R210 to R229). -/

namespace Sys2Proof.Machine

/-! ### Results and flags (41_alu2.md R204, R205) -/

/-- The value of a difference with borrow, at every width. -/
theorem toNat_ofInt_borrow {w : Nat} (a b : BitVec w) (c : Bool) :
    ((BitVec.ofInt w ((a.toNat : Int) - b.toNat - c.toNat)).toNat : Int) =
      ((a.toNat : Int) - b.toNat - c.toNat) % (2 ^ w : Nat) := by
  rw [BitVec.toNat_ofInt, Int.toNat_of_nonneg (Int.emod_nonneg _ (by simp))]

/-- A difference is negative where the subtrahend and the borrow exceed the minuend. -/
theorem decide_borrow (a b c : Nat) : decide (a < b + c) = decide ((a : Int) - b - c < 0) :=
  decide_eq_decide.mpr (by omega)

theorem decide_overflow_of_sum (x y z : Bool) : (x == y && z != x) = decide (x = y ∧ z ≠ x) := by
  revert x y z; decide

theorem decide_overflow_of_difference (x y z : Bool) : (x != y && z != x) = decide (x ≠ y ∧ z ≠ x) := by
  revert x y z; decide

theorem msb_byte (x : Byte) : x.msb = x.getLsbD 7 := x.msb_eq_getLsbD_last

theorem msb_word (x : Word) : x.msb = x.getLsbD 15 := x.msb_eq_getLsbD_last

/-- Settles O27: the value is the exact sum cut to the width, and each flag is the one of the rule in other words. -/
theorem additionFlags : Obligations.AdditionFlags := by
  constructor
  · rintro a b c _ rfl
    refine ⟨BitVec.toNat_ofNat _ _, rfl, congrArg some (beq_eq_decide _ _), congrArg some (msb_byte _), ?_, rfl, rfl⟩
    simp only [add8, msb_byte, decide_overflow_of_sum]
  · rintro a b c d h _ rfl
    refine ⟨BitVec.toNat_ofNat _ _, rfl, congrArg some (beq_eq_decide _ _), congrArg some (msb_word _), ?_, rfl, rfl⟩
    simp only [add16, msb_word, decide_overflow_of_sum]

/-- Settles O28: the value is the exact difference cut to the width, a borrow is its sign, and a comparison is the
difference without D and H. -/
theorem subtractionFlags : Obligations.SubtractionFlags := by
  constructor
  · rintro a b c _ rfl
    refine ⟨toNat_ofInt_borrow a b c, congrArg some (decide_borrow _ _ _), congrArg some (beq_eq_decide _ _),
      congrArg some (msb_byte _), ?_, rfl, congrArg some (decide_borrow _ _ _), ?_⟩
    · simp only [sub8, msb_byte, decide_overflow_of_difference]
    · rintro rfl
      rfl
  · rintro a b c d h _ rfl
    refine ⟨toNat_ofInt_borrow a b c, congrArg some (decide_borrow _ _ _), congrArg some (beq_eq_decide _ _),
      congrArg some (msb_word _), ?_, rfl, rfl, fun _ => rfl⟩
    simp only [sub16, msb_word, decide_overflow_of_difference]

/-! ### Signed overflow (41_alu2.md R204, R205) -/

/-- A sum with carry does not fit the signed range exactly where its operands have one sign and the result, cut to the
width, has the other: linear arithmetic for each combination of the signs and of the carry out. -/
theorem signed_sum_overflow_iff {n : Nat} (a b : BitVec (n + 1)) (c : Bool) :
    (a.msb == b.msb && (BitVec.ofNat (n + 1) (a.toNat + b.toNat + c.toNat)).msb != a.msb) = true ↔
      a.toInt + b.toInt + c.toNat < -2 ^ n ∨ 2 ^ n ≤ a.toInt + b.toInt + c.toNat := by
  have ha := a.isLt
  have hb := b.isLt
  have hc := c.toNat_le
  have hpow : (2 ^ n : Int) = (2 ^ n : Nat) := by norm_cast
  simp only [Bool.and_eq_true, beq_iff_eq, bne_iff_ne, BitVec.toInt_eq_msb_cond, BitVec.msb_eq_decide,
    BitVec.toNat_ofNat, Nat.add_sub_cancel, Nat.pow_succ, hpow, decide_eq_true_eq, ne_eq, decide_eq_decide] at ha hb ⊢
  generalize 2 ^ n = p at ha hb ⊢
  by_cases hcarry : a.toNat + b.toNat + c.toNat < p * 2
  · rw [Nat.mod_eq_of_lt hcarry]
    omega
  · rw [Nat.mod_eq_sub_mod (by omega), Nat.mod_eq_of_lt (by omega)]
    omega

theorem toNat_bool_not (c : Bool) : (!c).toNat = 1 - c.toNat := by cases c <;> rfl

/-- A difference with borrow is the sum with the complement of the subtrahend and of the borrow. -/
theorem ofInt_borrow_eq_ofNat_not {w : Nat} (a b : BitVec w) (c : Bool) :
    BitVec.ofInt w ((a.toNat : Int) - b.toNat - c.toNat) =
      BitVec.ofNat w (a.toNat + (~~~b).toNat + (!c).toNat) := by
  have hb := b.isLt
  have hsum : ((a.toNat + (~~~b).toNat + (!c).toNat : Nat) : Int) =
      (a.toNat : Int) - b.toNat - c.toNat + (2 ^ w : Nat) := by
    have hc := c.toNat_le
    rw [BitVec.toNat_not, toNat_bool_not]
    omega
  apply BitVec.eq_of_toNat_eq
  rw [BitVec.toNat_ofInt, BitVec.toNat_ofNat, ← Int.toNat_natCast (_ % _), Int.natCast_mod, hsum, Int.add_emod_right]

theorem toInt_not_eq {w : Nat} (b : BitVec (w + 1)) : (~~~b).toInt = -b.toInt - 1 := by
  have hb := b.isLt
  simp only [BitVec.toInt_eq_toNat_cond, BitVec.toNat_not]
  split <;> split <;> omega

/-- The same for a difference with borrow: the complement of the subtrahend has the other sign, and the sum with it is
the exact difference, signed and cut to the width. -/
theorem signed_difference_overflow_iff {n : Nat} (a b : BitVec (n + 1)) (c : Bool) :
    (a.msb != b.msb && (BitVec.ofInt (n + 1) ((a.toNat : Int) - b.toNat - c.toNat)).msb != a.msb) = true ↔
      a.toInt - b.toInt - c.toNat < -2 ^ n ∨ 2 ^ n ≤ a.toInt - b.toInt - c.toNat := by
  have hsign : (a.msb != b.msb) = (a.msb == (~~~b).msb) := by
    rw [BitVec.msb_not]
    cases a.msb <;> cases b.msb <;> rfl
  have hexact : a.toInt - b.toInt - c.toNat = a.toInt + (~~~b).toInt + (!c).toNat := by
    have hc := c.toNat_le
    rw [toInt_not_eq, toNat_bool_not]
    omega
  rw [hsign, ofInt_borrow_eq_ofNat_not, hexact]
  exact signed_sum_overflow_iff a (~~~b) (!c)

/-- Settles O30: the range of the width, from the general facts about sums and differences. -/
theorem overflowIsSignedOverflow : Obligations.OverflowIsSignedOverflow := by
  refine ⟨fun a b c => ⟨?_, ?_⟩, fun a b c d h => ⟨?_, ?_⟩⟩
  · exact (Option.some_inj.trans (signed_sum_overflow_iff a b c)).trans (by omega)
  · exact (Option.some_inj.trans (signed_difference_overflow_iff a b c)).trans (by omega)
  · exact (Option.some_inj.trans (signed_sum_overflow_iff a b c)).trans (by omega)
  · exact (Option.some_inj.trans (signed_difference_overflow_iff a b c)).trans (by omega)

/-! ### The operations (41_alu2.md R206, R210 to R229) -/

/-- The operations that work bit by bit are LOG8 of some byte (41_alu2.md R206). -/
theorem aluOp8_eq_log8 {op : AluOp} (h : op ∈ [AluOp.or, .and, .xor, .tcm, .tm]) (d v : Byte) (c : Bool) :
    ∃ t, aluOp8 op d v c = log8 t := by
  simp only [List.mem_cons, List.not_mem_nil, or_false] at h
  rcases h with rfl | rfl | rfl | rfl | rfl <;> exact ⟨_, rfl⟩

/-- The operations that work bit by bit are LOG16 of some word (41_alu2.md R206). -/
theorem aluOp16_eq_log16 {op : AluOp} (h : op ∈ [AluOp.or, .and, .xor, .tcm, .tm]) (d v : Word) (c : Bool)
    (fd fh : Option Bool) : ∃ t, aluOp16 op d v c fd fh = log16 t := by
  simp only [List.mem_cons, List.not_mem_nil, or_false] at h
  rcases h with rfl | rfl | rfl | rfl | rfl <;> exact ⟨_, rfl⟩

/-- Bit `j` of TCM's result (41_alu2.md R219). -/
theorem getLsbD_not_and {w : Nat} (d v : BitVec w) {j : Nat} (hj : j < w) :
    (~~~d &&& v).getLsbD j = (!d.getLsbD j && v.getLsbD j) := by
  rw [BitVec.getLsbD_and, BitVec.getLsbD_not, decide_eq_true hj, Bool.true_and]

/-- Settles O29: each operation by its definition, and the flags of those that work bit by bit by R206. -/
theorem twoOperandOperations : Obligations.TwoOperandOperations := by
  refine ⟨fun op => by cases op <;> decide, fun _ => rfl, fun _ => rfl, fun d v c => ?_, fun d v c fd fh => ?_⟩
  · refine ⟨rfl, rfl, rfl, rfl, rfl, fun j hj => ⟨BitVec.getLsbD_or, BitVec.getLsbD_and, BitVec.getLsbD_xor,
      getLsbD_not_and d v hj, BitVec.getLsbD_and⟩, fun op r hop hr => ?_⟩
    obtain ⟨t, ht⟩ := aluOp8_eq_log8 hop d v c
    rw [hr, ht]
    exact ⟨congrArg some (beq_eq_decide _ _), congrArg some (msb_byte t), rfl, rfl, rfl, rfl⟩
  · refine ⟨rfl, rfl, rfl, rfl, rfl, fun j hj => ⟨BitVec.getLsbD_or, BitVec.getLsbD_and, BitVec.getLsbD_xor,
      getLsbD_not_and d v hj, BitVec.getLsbD_and⟩, fun op r hop hr => ?_⟩
    obtain ⟨t, ht⟩ := aluOp16_eq_log16 hop d v c fd fh
    rw [hr, ht]
    exact ⟨congrArg some (beq_eq_decide _ _), congrArg some (msb_word t), rfl, rfl, rfl, rfl⟩

end Sys2Proof.Machine
end

section
/-! SUPPORT. The two-operand instructions, where every part of the operand form goes through (spec/41_alu2.md R201 to
R203). -/

namespace Sys2Proof.Machine

theorem exec_ofAluByte (op : AluOp) (f : AluByteForm) (s : State) :
    exec (Instr.ofAluByte op f) s = Res.outcome (aluByte op f s) := by cases op <;> rfl

theorem exec_ofAluWord (op : AluOp) (f : AluWordForm) (s : State) :
    exec (Instr.ofAluWord op f) s = Res.outcome (aluWord op f s) := by cases op <;> rfl

theorem storeResult8_eq (op : AluOp) {l : Loc} (v : Byte) {s : State} (h : s.byteOk l = true) :
    storeResult8 op l v s = .ok (if aluStores op then s.putByte l v else s) := by
  rw [storeResult8, store8_eq v h]
  split <;> rfl

/-- A result that is not stored needs no destination that can be written. -/
theorem storeResult16_eq {op : AluOp} {l : Loc} {v : Word} {s : State}
    (h : aluStores op = true → s.putWordOk l v = true) :
    storeResult16 op l v s = .ok (if aluStores op then s.putWord l v else s) := by
  rw [storeResult16]
  split
  next hstores => exact store16_eq (h hstores)
  next => rfl

/-- Settles O25: each part of the form answers what the tables say, and the instruction runs the parts in the order of
R203. -/
theorem byteOperationsComplete : Obligations.ByteOperationsComplete := by
  intro op f s s1 s2 s3 r hstart hs1 hread hdest hr hs2 hs3 hfinish
  rw [exec_ofAluByte, aluByte, AluByteForm.pre_eq hstart, Res.bind_ok, ← hs1, AluByteForm.dst_eq hread, Res.bind_ok,
    AluByteForm.src_eq hread, Res.bind_ok, readDst8_eq hdest, Res.bind_ok]
  simp only [← hr]
  rw [storeResult8_eq op _ hdest, Res.bind_ok, ← hs2, ← hs3, AluByteForm.post_eq hfinish, Res.outcome_ok]

/-- Settles O26: the parts in the order of R203; the evenness of a pair address serves both the destination and the
source. -/
theorem wordOperationsComplete : Obligations.WordOperationsComplete := by
  intro op f s s1 s2 s3 r hstart hs1 hread heven hdest hr hstore hs2 hs3 hfinish
  rw [exec_ofAluWord, aluWord, AluWordForm.pre_eq hstart, Res.bind_ok, ← hs1, AluWordForm.dst_eq hread heven,
    Res.bind_ok, AluWordForm.src_eq hread heven, Res.bind_ok, readDst16_eq hdest, Res.bind_ok]
  simp only [← hr]
  rw [storeResult16_eq hstore, Res.bind_ok, ← hs2, ← hs3, AluWordForm.post_eq hfinish, Res.outcome_ok]

end Sys2Proof.Machine
end

section
/-! SUPPORT. The values and flags of the one-operand operations as shifts, rotates and sums (spec/42_alu1.md R262 to
R278), and decimal adjustment after sums and differences of BCD numbers (R270). -/

namespace Sys2Proof.Machine

/-! ### Shifts, rotates and swaps of halves, at every width (42_alu1.md R268, R271 to R278) -/

theorem extractLsb'_append_ofBool {w : Nat} (d : BitVec (w + 1)) (c : Bool) :
    d.extractLsb' 0 w ++ BitVec.ofBool c = d <<< 1 ||| (BitVec.ofBool c).zeroExtend (w + 1) := by
  ext i hi
  cases i with
  | zero => simp [BitVec.getElem_append]
  | succ i =>
    have hd : d.getLsbD i = d[i] := BitVec.getLsbD_eq_getElem _
    simp [BitVec.getElem_append, hd]

theorem ofBool_append_extractLsb' {w : Nat} (d : BitVec (1 + w)) (c : Bool) :
    BitVec.ofBool c ++ d.extractLsb' 1 w = d >>> 1 ||| (BitVec.ofBool c).zeroExtend (1 + w) <<< w := by
  ext i hi
  by_cases h : i < w
  · simp [BitVec.getElem_append, h]
  · obtain rfl : i = w := by omega
    simp [BitVec.getElem_append]

theorem extractLsb'_append_eq_rotateLeft {w : Nat} (d : BitVec (w + 1)) (hw : 0 < w) :
    d.extractLsb' 0 w ++ d.extractLsb' w 1 = d.rotateLeft 1 := by
  have hmod : 1 % (w + 1) = 1 := Nat.mod_eq_of_lt (by omega)
  ext i hi
  cases i with
  | zero => simp [BitVec.getElem_append, hmod]
  | succ i =>
    have hd : d.getLsbD i = d[i] := BitVec.getLsbD_eq_getElem _
    simp [BitVec.getElem_append, hmod, hd]

theorem extractLsb'_append_eq_rotateRight {w : Nat} (d : BitVec (1 + w)) (hw : 0 < w) :
    d.extractLsb' 0 1 ++ d.extractLsb' 1 w = d.rotateRight 1 := by
  have hmod : 1 % (1 + w) = 1 := Nat.mod_eq_of_lt (by omega)
  ext i hi
  by_cases h : i < w
  · simp [BitVec.getElem_append, h, hmod]
  · obtain rfl : i = w := by omega
    simp [BitVec.getElem_append, hmod]

theorem extractLsb'_append_eq_sshiftRight {w : Nat} (d : BitVec (1 + w)) :
    d.extractLsb' w 1 ++ d.extractLsb' 1 w = d.sshiftRight 1 := by
  ext i hi
  by_cases h : i < w
  · simp [BitVec.getElem_append, BitVec.getElem_sshiftRight, h]
  · obtain rfl : i = w := by omega
    simp [BitVec.getElem_append, BitVec.getElem_sshiftRight, BitVec.msb_eq_getLsbD_last]

theorem extractLsb'_halves_swapped {w : Nat} (d : BitVec (w + w)) :
    d.extractLsb' 0 w ++ d.extractLsb' w w = d <<< w ||| d >>> w := by
  ext i hi
  by_cases h : i < w
  · simp [BitVec.getElem_append, h]
  · have hd : d.getLsbD (w + i) = false := BitVec.getLsbD_of_ge _ _ (by omega)
    have hd' : d.getLsbD (i - w) = d[i - w] := BitVec.getLsbD_eq_getElem _
    simp [BitVec.getElem_append, h, hd, hd']

/-! ### Byte operations (42_alu1.md R267, R268, R271 to R274, R277) -/

theorem cpl8_eq (d : Byte) : cpl8 d = ⟨d ^^^ 0xFF, byteFlags (d ^^^ 0xFF) none (some false)⟩ := by
  have hnot : d ^^^ 0xFF = ~~~d := BitVec.xor_allOnes
  rw [hnot]
  rfl

theorem swap8_eq (d : Byte) (c v : Option Bool) :
    swap8 d c v = ⟨d <<< 4 ||| d >>> 4, byteFlags (d <<< 4 ||| d >>> 4) c v⟩ := by
  have hnib : nib (loNib d) (hiNib d) = d <<< 4 ||| d >>> 4 := extractLsb'_halves_swapped (w := 4) d
  simp only [swap8, hnib, byteFlags]

theorem rotate8_eq (d r : Byte) (c : Bool) :
    rotate8 d r c = ⟨r, byteFlags r (some c) (some (r.getLsbD 7 != d.getLsbD 7))⟩ := by
  rw [← msb_byte, ← msb_byte]
  rfl

theorem rlc8_eq {d r : Byte} {c : Bool} (hr : r = d <<< 1 ||| (BitVec.ofBool c).zeroExtend 8) :
    rlc8 d c = ⟨r, byteFlags r (some (d.getLsbD 7)) (some (r.getLsbD 7 != d.getLsbD 7))⟩ := by
  rw [hr, ← extractLsb'_append_ofBool (w := 7), ← rotate8_eq, ← msb_byte]
  rfl

theorem rrc8_eq {d r : Byte} {c : Bool} (hr : r = d >>> 1 ||| (BitVec.ofBool c).zeroExtend 8 <<< 7) :
    rrc8 d c = ⟨r, byteFlags r (some (d.getLsbD 0)) (some (r.getLsbD 7 != d.getLsbD 7))⟩ := by
  rw [hr, ← ofBool_append_extractLsb' (w := 7), ← rotate8_eq]
  rfl

theorem rol8_eq (d : Byte) : rol8 d = ⟨d.rotateLeft 1,
    byteFlags (d.rotateLeft 1) (some (d.getLsbD 7)) (some (d.getLsbD 6 != d.getLsbD 7))⟩ := by
  have hvalue : rol8 d = rotate8 d (d.rotateLeft 1) d.msb :=
    congrArg (rotate8 d · d.msb) (extractLsb'_append_eq_rotateLeft (w := 7) d (by decide))
  have hbit : (d.rotateLeft 1).getLsbD 7 = d.getLsbD 6 := by simp
  rw [hvalue, rotate8_eq, hbit, msb_byte]

theorem ror8_eq (d : Byte) : ror8 d = ⟨d.rotateRight 1,
    byteFlags (d.rotateRight 1) (some (d.getLsbD 0)) (some (d.getLsbD 0 != d.getLsbD 7))⟩ := by
  have hvalue : ror8 d = rotate8 d (d.rotateRight 1) (d.getLsbD 0) :=
    congrArg (rotate8 d · (d.getLsbD 0)) (extractLsb'_append_eq_rotateRight (w := 7) d (by decide))
  have hbit : (d.rotateRight 1).getLsbD 7 = d.getLsbD 0 := by simp
  rw [hvalue, rotate8_eq, hbit]

theorem sra8_eq (d : Byte) : sra8 d =
    ⟨d.sshiftRight 1, byteFlags (d.sshiftRight 1) (some (d.getLsbD 0)) (some false)⟩ := by
  rw [← extractLsb'_append_eq_sshiftRight (w := 7)]
  rfl

/-! ### Word operations (42_alu1.md R275, R276, R278) -/

theorem rotate16_eq (d r : Word) (c : Bool) (z : Option Bool) : rotate16 d r c z =
    ⟨r, { wordFlags r (some c) (some (r.getLsbD 15 != d.getLsbD 15)) with z := z }⟩ := by
  rw [← msb_word, ← msb_word]
  rfl

theorem rlc16_eq {d r : Word} {c : Bool} (hr : r = d <<< 1 ||| (BitVec.ofBool c).zeroExtend 16) (z : Option Bool) :
    rlc16 d c z =
      ⟨r, { wordFlags r (some (d.getLsbD 15)) (some (r.getLsbD 15 != d.getLsbD 15)) with z := z }⟩ := by
  rw [hr, ← extractLsb'_append_ofBool (w := 15), ← rotate16_eq, ← msb_word]
  rfl

theorem rrc16_eq {d r : Word} {c : Bool} (hr : r = d >>> 1 ||| (BitVec.ofBool c).zeroExtend 16 <<< 15)
    (z : Option Bool) : rrc16 d c z =
      ⟨r, { wordFlags r (some (d.getLsbD 0)) (some (r.getLsbD 15 != d.getLsbD 15)) with z := z }⟩ := by
  rw [hr, ← ofBool_append_extractLsb' (w := 15), ← rotate16_eq]
  rfl

theorem sra16_eq (d : Word) : sra16 d =
    ⟨d.sshiftRight 1, wordFlags (d.sshiftRight 1) (some (d.getLsbD 0)) (some false)⟩ := by
  rw [← extractLsb'_append_eq_sshiftRight (w := 15)]
  rfl

/-! ### Decimal adjustment (42_alu1.md R270) -/

theorem toNat_bcd {n : Nat} (h : n < 100) : (bcd n).toNat = 16 * (n / 10) + n % 10 := by
  rw [bcd, BitVec.toNat_ofNat]
  omega

theorem toNat_loNib (d : Byte) : (loNib d).toNat = d.toNat % 16 := by
  rw [loNib, BitVec.extractLsb'_toNat, Nat.shiftRight_zero]

theorem toNat_hiNib (d : Byte) : (hiNib d).toNat = d.toNat / 16 := by
  have hd := d.isLt
  rw [hiNib, BitVec.extractLsb'_toNat, Nat.shiftRight_eq_div_pow]
  omega

/-- With D at 0, DA adds 6 to a low digit that is above 9 or has carried, and 6 to the high digit where the byte is
above 99 in BCD or has carried, which C then says. -/
theorem da8_of_not_d (d : Byte) (fc fh : Bool) (v : Option Bool) {low high : Prop} [Decidable low] [Decidable high]
    (hlow : (fh = true ∨ 9 < d.toNat % 16) ↔ low) (hhigh : (fc = true ∨ 0x99 < d.toNat) ↔ high) :
    (da8 d fc false fh v).value.toNat =
        (d.toNat + (if low then 0x06 else 0) + (if high then 0x60 else 0)) % 256 ∧
      (da8 d fc false fh v).flags.c = some (decide high) := by
  have hadjL : (fh || decide (9 < (loNib d).toNat)) = decide low := by
    simp [← hlow, toNat_loNib]
  have hdigits : 9 < d.toNat / 16 ∨ d.toNat / 16 = 9 ∧ 9 < d.toNat % 16 ↔ 0x99 < d.toNat := by omega
  have hadjH : (fc || decide (9 < (hiNib d).toNat) ||
      (decide ((hiNib d).toNat = 9) && decide (9 < (loNib d).toNat))) = decide high := by
    simp [← hhigh, toNat_loNib, toNat_hiNib, ← hdigits, Bool.or_assoc]
  simp only [da8, hadjL, hadjH, Bool.false_eq_true, if_false, and_true, decide_eq_true_eq, BitVec.toNat_add]
  split <;> split <;> simp [Nat.add_assoc]

/-- With D at 1, DA subtracts 6 from each digit that has borrowed, and C stays. -/
theorem da8_of_d (d : Byte) (fc fh : Bool) (v : Option Bool) :
    (da8 d fc true fh v).value.toNat = (d.toNat + (if fh then 0xFA else 0) + (if fc then 0xA0 else 0)) % 256 ∧
      (da8 d fc true fh v).flags.c = some fc := by
  refine ⟨?_, rfl⟩
  simp only [da8, if_true, BitVec.toNat_add]
  cases fh <;> cases fc <;> simp [Nat.add_assoc]
  omega

/-- The low digit of a BCD sum needs adjustment where the sum of the low digits exceeds 9, the high digit where the
whole sum exceeds 99: the flags H and C make up for what the cut to a digit and to a byte loses. -/
theorem da8_bcd_sum {x y : Nat} {c fc fd fh : Bool} {r : ByteResult} (hr : r = add8 (bcd x) (bcd y) c)
    (hx : x < 100) (hy : y < 100) (hc : r.flags.c = some fc) (hd : r.flags.d = some fd) (hh : r.flags.h = some fh)
    (v : Option Bool) :
    (da8 r.value fc fd fh v).value = bcd ((x + y + c.toNat) % 100) ∧
      (da8 r.value fc fd fh v).flags.c = some (decide (100 ≤ x + y + c.toNat)) := by
  obtain ⟨hvalue, hcarry, -, -, -, hsub, hhalf⟩ := additionFlags.1 _ _ _ _ hr
  simp only [toNat_bcd hx, toNat_bcd hy] at hvalue hcarry hhalf
  have hbit := c.toNat_le
  obtain rfl : fd = false := Option.some_inj.mp (hd.symm.trans hsub)
  have hlow : (fh = true ∨ 9 < r.value.toNat % 16) ↔ 9 < x % 10 + y % 10 + c.toNat := by
    rw [Option.some_inj.mp (hh.symm.trans hhalf), decide_eq_true_eq, hvalue]
    omega
  have hhigh : (fc = true ∨ 0x99 < r.value.toNat) ↔ 100 ≤ x + y + c.toNat := by
    have hcut : ∀ n : Nat, (n ≥ 256 ∨ 0x99 < n % 256) ↔ 0x99 < n := by omega
    have hnine : x / 10 + y / 10 < 9 ∨ x / 10 + y / 10 = 9 ∨ 9 < x / 10 + y / 10 := by omega
    rw [Option.some_inj.mp (hc.symm.trans hcarry), decide_eq_true_eq, hvalue, hcut]
    omega
  obtain ⟨hadjusted, hflag⟩ := da8_of_not_d r.value fc fh v hlow hhigh
  refine ⟨BitVec.eq_of_toNat_eq ?_, hflag⟩
  rw [hadjusted, hvalue, toNat_bcd (Nat.mod_lt _ (by decide))]
  split <;> split <;> omega

/-- A digit of a BCD difference needs adjustment where it borrows, as H and C say. -/
theorem da8_bcd_difference {x y : Nat} {c fc fd fh : Bool} {r : ByteResult} (hr : r = sub8 (bcd x) (bcd y) c)
    (hx : x < 100) (hy : y < 100) (hc : r.flags.c = some fc) (hd : r.flags.d = some fd) (hh : r.flags.h = some fh)
    (v : Option Bool) :
    (da8 r.value fc fd fh v).value = bcd ((100 + x - y - c.toNat) % 100) ∧
      (da8 r.value fc fd fh v).flags.c = some (decide (x < y + c.toNat)) := by
  obtain ⟨hvalue, hborrow, -, -, -, hsub, hhalf, -⟩ := subtractionFlags.1 _ _ _ _ hr
  simp only [toNat_bcd hx, toNat_bcd hy] at hvalue hborrow hhalf
  have hbit := c.toNat_le
  obtain rfl : fd = true := Option.some_inj.mp (hd.symm.trans hsub)
  have hfc : fc = decide (x < y + c.toNat) := by
    rw [Option.some_inj.mp (hc.symm.trans hborrow), decide_eq_decide]
    omega
  have hfh : fh = decide (x % 10 < y % 10 + c.toNat) := by
    rw [Option.some_inj.mp (hh.symm.trans hhalf), decide_eq_decide]
    omega
  obtain ⟨hadjusted, hflag⟩ := da8_of_d r.value fc fh v
  refine ⟨BitVec.eq_of_toNat_eq ?_, hflag.trans (congrArg some hfc)⟩
  rw [hadjusted, hfc, hfh, toNat_bcd (Nat.mod_lt _ (by decide))]
  simp only [decide_eq_true_eq]
  split <;> split <;> omega

/-- Settles O38: the adjustment of each digit, by D after a sum and after a difference. -/
theorem decimalAdjustGivesBcdResults : Obligations.DecimalAdjustGivesBcdResults :=
  fun _ _ _ _ _ _ _ v hx hy hc hd hh =>
    ⟨fun hr => da8_bcd_sum hr hx hy hc hd hh v, fun hr => da8_bcd_difference hr hx hy hc hd hh v⟩

end Sys2Proof.Machine
end

section
/-! SUPPORT. The one-operand instructions, where their target can be reached (spec/42_alu1.md R260, R261). -/

namespace Sys2Proof.Machine

section
variable {s : State} {t : ByteTarget} (h : s.targetReachable t = true)
include h

theorem targetAddr_eq_of_reachable : targetAddr t s = .ok (s.target t) := by
  refine targetAddr_eq fun r ht => ?_
  subst ht
  rw [State.targetReachable, Bool.and_eq_true] at h
  exact h.1

theorem reachable_target : s.reachable (s.target t) = true := by
  cases t with
  | direct r => exact h
  | indirect r =>
    rw [State.targetReachable, Bool.and_eq_true] at h
    exact h.2

/-- The parts of a byte unary in the order of R260: target, operand, result, flags. -/
theorem unaryByte_next {g : State → Byte → ByteResult} {v : Byte} {u : FlagUpdate}
    (hg : g s (s.reg (s.target t)) = ⟨v, u⟩) :
    Res.outcome (unaryByte g t s) = .next ((s.setReg (s.target t) v).setFlags u) := by
  have hreach := reachable_target h
  rw [unaryByte, targetAddr_eq_of_reachable h, Res.bind_ok, readReg_eq hreach, Res.bind_ok]
  simp only [hg]
  rw [writeReg_eq _ hreach, Res.bind_ok, Res.outcome_ok]

theorem clearByte_next : Res.outcome (clearByte t s) = .next (s.setReg (s.target t) 0) := by
  rw [clearByte, targetAddr_eq_of_reachable h, Res.bind_ok, writeReg_eq _ (reachable_target h), Res.outcome_ok]

end

/-- The parts of a word unary in the order of R261: operand, result, flags. -/
theorem unaryWord_next {g : State → Word → WordResult} {rr : RegPair} {s : State} {v : Word} {u : FlagUpdate}
    (hread : s.pairReachable rr = true) (hg : g s (s.pair rr) = ⟨v, u⟩) (hwrite : s.pairSettable rr v = true) :
    Res.outcome (unaryWord g rr s) = .next ((s.setPair rr v).setFlags u) := by
  rw [unaryWord, readPair_eq hread, Res.bind_ok]
  simp only [hg]
  rw [writePair_eq hwrite, Res.bind_ok, Res.outcome_ok]

/-- Settles O36: each instruction runs the parts of R260 with its own operation. -/
theorem byteUnariesComplete : Obligations.ByteUnariesComplete := by
  rintro t s _ _ _ h rfl rfl rfl
  refine ⟨?inc, ?dec, ?clr, ?cpl, ?swap, ?rlc, ?rrc, ?rol, ?ror, ?sra, ?da⟩
  case inc => exact unaryByte_next h rfl
  case dec => exact unaryByte_next h rfl
  case clr => exact clearByte_next h
  case cpl => exact unaryByte_next h (cpl8_eq _)
  case swap => exact unaryByte_next h (swap8_eq ..)
  case rlc => exact fun _ hr => unaryByte_next h (rlc8_eq hr)
  case rrc => exact fun _ hr => unaryByte_next h (rrc8_eq hr)
  case rol => exact unaryByte_next h (rol8_eq _)
  case ror => exact unaryByte_next h (ror8_eq _)
  case sra => exact unaryByte_next h (sra8_eq _)
  case da =>
    rintro _ rfl
    exact unaryByte_next h rfl

/-- Settles O37: each instruction runs the parts of R261 with its own operation. -/
theorem wordUnariesComplete : Obligations.WordUnariesComplete := by
  rintro rr s _ _ h rfl rfl
  refine ⟨?incw, ?decw, ?rlcw, ?rrcw, ?sraw⟩
  case incw => exact unaryWord_next h rfl
  case decw => exact unaryWord_next h rfl
  case rlcw => exact fun _ hr => unaryWord_next h (rlc16_eq hr _)
  case rrcw => exact fun _ hr => unaryWord_next h (rrc16_eq hr _)
  case sraw => exact unaryWord_next h (sra16_eq _)

end Sys2Proof.Machine
end

section
/-! SUPPORT. The stack instructions, where each part goes through (spec/43_stack.md R300 to R318): the operand or the
top of the stack, the pointer, the destination. -/

namespace Sys2Proof.Machine

/-! ### Pushes (43_stack.md R305 to R308, R313, R314) -/

theorem exec_ofPush (k : Stack) (f : PushForm) (s : State) :
    exec (Instr.ofPush k f) s = Res.outcome (pushByteOn k f s) := by cases k <;> rfl

theorem pushByte_eq {f : PushForm} {s : State} (h : s.pushReachable f = true) :
    pushByte f s = .ok (s.pushValue f) := by
  cases f with
  | imm n => rfl
  | reg t =>
    rw [pushByte, targetAddr_eq_of_reachable h, Res.bind_ok, readReg_eq (reachable_target h)]
    rfl

theorem exec_ofPush_eq {k : Stack} {f : PushForm} {s : State} (h : s.pushReachable f = true) :
    exec (Instr.ofPush k f) s = Res.outcome (push8 k (s.pushValue f) s) := by
  rw [exec_ofPush, pushByteOn, pushByte_eq h, Res.bind_ok]

theorem pushWordOn_pair {k : Stack} {rr : RegPair} {s : State} (h : s.pairReachable rr = true) :
    pushWordOn k (.pair rr) s = push16 k (s.pair rr) s := by
  rw [pushWordOn, pushWord, readPair_eq h, Res.bind_ok]

theorem pushAddrOn_short {k : Stack} {n : Byte} {rr : RegPair} {s : State} (h : s.pairReachable rr = true) :
    pushAddrOn k (.short n rr) s = push16 k (s.pair rr + n.signExtend 16) s := by
  rw [pushAddrOn, peaAddr, readPair_eq h]
  rfl

theorem pushAddrOn_long {k : Stack} {nn : Word} {rr : RegPair} {s : State} (h : s.pairReachable rr = true) :
    pushAddrOn k (.long nn rr) s = push16 k (s.pair rr + nn) s := by
  rw [pushAddrOn, peaAddr, readPair_eq h]
  rfl

/-- An instruction that pushes a word is the push of that word onto its stack. -/
theorem exec_of_pushedWord {i : Instr} {s : State} {k : Stack} {w : Word} (h : Instr.pushedWord i s = some (k, w)) :
    exec i s = Res.outcome (push16 k w s) := by
  unfold Instr.pushedWord at h
  split at h <;> simp only [Option.ite_none_right_eq_some, Option.some.injEq, Prod.mk.injEq, reduceCtorEq] at h
  case h_1 | h_2 =>
    obtain ⟨rfl, rfl⟩ := h
    rfl
  case h_3 | h_4 =>
    obtain ⟨hread, rfl, rfl⟩ := h
    exact congrArg Res.outcome (pushWordOn_pair hread)
  case h_5 | h_6 =>
    obtain ⟨hread, rfl, rfl⟩ := h
    exact congrArg Res.outcome (pushAddrOn_short hread)
  case h_7 | h_8 =>
    obtain ⟨hread, rfl, rfl⟩ := h
    exact congrArg Res.outcome (pushAddrOn_long hread)

/-- Settles O39: the operand is read in the state before the push, and the push goes through. -/
theorem pushesComplete : Obligations.PushesComplete := by
  refine fun k s => ⟨fun f hread hpush => ?_, fun i w hi hpush => ?_⟩
  · rw [exec_ofPush_eq hread, push8_eq _ hpush, Res.outcome_ok]
  · rw [exec_of_pushedWord hi, push16_eq hpush, Res.outcome_ok]

/-! ### Pops (43_stack.md R309 to R312) -/

theorem exec_ofPop (k : Stack) (t : ByteTarget) (s : State) :
    exec (Instr.ofPop k t) s = Res.outcome (popByteFrom k t s) := by cases k <;> rfl

theorem exec_ofPopw (k : Stack) (rr : RegPair) (s : State) :
    exec (Instr.ofPopw k rr) s = Res.outcome (popWordFrom k rr s) := by cases k <;> rfl

theorem popByteFrom_eq {k : Stack} {t : ByteTarget} {s : State} (ht : ∀ r, t = .indirect r → s.reachable r = true)
    (hpop : s.pop8Ok k = true) (hwrite : (s.dropped k 1).reachable (s.target t) = true) :
    popByteFrom k t s = .ok ((s.dropped k 1).setReg (s.target t) (s.top8 k)) := by
  rw [popByteFrom, targetAddr_eq ht, Res.bind_ok, pop8_eq hpop, Res.bind_ok]
  exact writeReg_eq _ hwrite

theorem popWordFrom_eq {k : Stack} {rr : RegPair} {s : State} (hpop : s.pop16Ok k = true)
    (hwrite : (s.dropped k 2).pairSettable rr (s.top16 k) = true) :
    popWordFrom k rr s = .ok ((s.dropped k 2).setPair rr (s.top16 k)) := by
  rw [popWordFrom, pop16_eq hpop, Res.bind_ok]
  exact writePair_eq hwrite

/-- Settles O40: the target is found before the pop, and the destination is written after it. -/
theorem popsComplete : Obligations.PopsComplete := by
  refine fun k s s1 => ⟨?byte, ?word⟩
  case byte =>
    rintro t _ ht rfl hpop rfl hwrite
    rw [exec_ofPop, popByteFrom_eq ht hpop hwrite, Res.outcome_ok]
  case word =>
    rintro rr hpop rfl hwrite
    rw [exec_ofPopw, popWordFrom_eq hpop hwrite, Res.outcome_ok]

/-! ### Frames (43_stack.md R315 to R318) -/

theorem exec_ofLink (k : Stack) (rr : RegPair) (n : Byte) (s : State) :
    exec (Instr.ofLink k rr n) s = Res.outcome (linkOn k rr n s) := by cases k <;> rfl

theorem exec_ofUnlink (k : Stack) (rr : RegPair) (s : State) :
    exec (Instr.ofUnlink k rr) s = Res.outcome (unlinkFrom k rr s) := by cases k <;> rfl

@[simp] theorem State.setSp_setSp (s : State) (k : Stack) (v w : Word) : (s.setSp k v).setSp k w = s.setSp k w := by
  cases k <;> rfl

theorem State.setSpHigh_setSpLow (s : State) (k : Stack) (h l : Byte) :
    (s.setSpLow k l).setSpHigh k h = s.setSp k (word h l) := by
  simp [State.setSpLow, State.setSpHigh]

@[simp] theorem State.pushed8_fresh (s : State) (k : Stack) (v : Byte) : (s.pushed8 k v).fresh = s.fresh := by
  unfold State.pushed8
  split <;> simp

@[simp] theorem State.dropped_fresh (s : State) (k : Stack) (n : Byte) : (s.dropped k n).fresh = s.fresh := by
  unfold State.dropped
  split <;> simp

@[simp] theorem State.reachable_dropped (s : State) (k : Stack) (n a : Byte) :
    (s.dropped k n).reachable a = s.reachable a := by
  unfold State.dropped
  split <;> simp

section
variable {k : Stack} {rr : RegPair} {s s1 s2 : State}

theorem linkOn_in_memory (n : Byte) (hr : s.inRegfile k = false) (hread : s.pairReachable rr = true)
    (hs1 : s1 = s.pushed16 k (s.pair rr)) (hwrite : s1.pairSettable rr (s1.sp k) = true)
    (hs2 : s2 = s1.setPair rr (s1.sp k)) :
    linkOn k rr n s = .ok (s2.setSp k (s2.sp k - n.zeroExtend 16)) := by
  have hpush : s.push16Ok k (s.pair rr) = true := by rw [State.push16Ok, hr]; rfl
  subst hs1 hs2
  rw [linkOn, if_neg (by simp [hr]), readPair_eq hread, Res.bind_ok, push16_eq hpush, Res.bind_ok,
    writePair_eq hwrite, Res.bind_ok]

theorem linkOn_in_registers (n : Byte) (hr : s.inRegfile k = true) (hread : s.reachable (rr + 1) = true)
    (hpush : s.push8Ok k = true) (hs1 : s1 = s.pushed8 k (s.reg (rr + 1))) (hwrite : s1.reachable (rr + 1) = true)
    (hs2 : s2 = s1.setReg (rr + 1) (s1.spLow k)) :
    linkOn k rr n s = .ok (s2.setSp k (word (Config.freeStackHigh s.fresh) (s2.spLow k - n))) := by
  subst hs1 hs2
  rw [linkOn, if_pos hr, readReg_eq hread, Res.bind_ok, push8_eq _ hpush, Res.bind_ok, writeReg_eq _ hwrite,
    Res.bind_ok]
  simp [State.setSpHigh_setSpLow]

theorem unlinkFrom_in_memory (hr : s.inRegfile k = false) (hread : s.pairReachable rr = true)
    (hs1 : s1 = s.setSp k (s.pair rr)) (hs2 : s2 = s1.dropped k 2)
    (hwrite : s2.pairSettable rr (s1.top16 k) = true) :
    unlinkFrom k rr s = .ok (s2.setPair rr (s1.top16 k)) := by
  have hpop : s1.pop16Ok k = true := by simp [State.pop16Ok, hs1, hr]
  subst hs2
  rw [unlinkFrom, if_neg (by simp [hr]), readPair_eq hread, Res.bind_ok, ← hs1, pop16_eq hpop, Res.bind_ok]
  exact writePair_eq hwrite

theorem unlinkFrom_in_registers (hr : s.inRegfile k = true) (hread : s.reachable (rr + 1) = true)
    (hs1 : s1 = s.setSpLow k (s.reg (rr + 1))) (hpop : s1.pop8Ok k = true) (hwrite : s1.reachable (rr + 1) = true)
    (hs2 : s2 = (s1.dropped k 1).setReg (rr + 1) (s1.top8 k)) :
    unlinkFrom k rr s = .ok (s2.setSp k (word (Config.freeStackHigh s.fresh) (s2.spLow k))) := by
  have hfresh : s2.fresh = s.fresh := by simp [hs2, hs1]
  rw [unlinkFrom, if_pos hr, readReg_eq hread, Res.bind_ok, ← hs1, pop8_eq hpop, Res.bind_ok, ← hfresh]
  dsimp only
  rw [writeReg_eq _ (by simpa using hwrite), Res.bind_ok, ← hs2]
  rfl

end

/-- Settles O41: in memory the pair and the whole pointer take part, in the register file their low bytes. -/
theorem linksAndUnlinksComplete : Obligations.LinksAndUnlinksComplete := by
  refine fun k rr n s s1 s2 => ⟨?linkMemory, ?linkRegisters, ?unlinkMemory, ?unlinkRegisters⟩
  case linkMemory =>
    intro hr hread hs1 hwrite hs2
    rw [exec_ofLink, linkOn_in_memory n hr hread hs1 hwrite hs2, Res.outcome_ok]
  case linkRegisters =>
    intro hr hread hpush hs1 hwrite hs2
    rw [exec_ofLink, linkOn_in_registers n hr hread hpush hs1 hwrite hs2, Res.outcome_ok]
  case unlinkMemory =>
    intro hr hread hs1 hs2 hwrite
    rw [exec_ofUnlink, unlinkFrom_in_memory hr hread hs1 hs2 hwrite, Res.outcome_ok]
  case unlinkRegisters =>
    intro hr hread hs1 hpop hwrite hs2
    rw [exec_ofUnlink, unlinkFrom_in_registers hr hread hs1 hpop hwrite hs2, Res.outcome_ok]

end Sys2Proof.Machine
end

section
/-! SUPPORT. What a push leaves on a stack whose next places keep what is pushed, and that the next pop takes it back
(spec/43_stack.md R300 to R303). -/

namespace Sys2Proof.Machine

/-! ### Stack pointers and ordinary registers -/

@[simp] theorem State.ordinary_setSp (s : State) (k : Stack) (v : Word) (a : Byte) :
    (s.setSp k v).ordinary a = s.ordinary a := by simp [State.ordinary]

@[simp] theorem State.ordinary_setSpLow (s : State) (k : Stack) (v a : Byte) :
    (s.setSpLow k v).ordinary a = s.ordinary a := by simp [State.ordinary]

/-- An ordinary register is no part of a stack pointer. -/
theorem State.reg_setSp_ordinary {s : State} {a : Byte} (k : Stack) (v : Word) (h : s.ordinary a = true) :
    (s.setSp k v).reg a = s.reg a := by
  simp only [State.ordinary, Bool.and_eq_true, Bool.or_eq_true, decide_eq_true_eq] at h
  obtain ⟨-, hrole | hrole⟩ := h <;> simp [State.reg, State.cell, hrole, State.pageKey]

theorem State.sp_setReg_ordinary {s : State} {a : Byte} (k : Stack) (v : Byte) (h : s.ordinary a = true) :
    (s.setReg a v).sp k = s.sp k := by
  obtain ⟨f, g, e⟩ := State.setReg_ordinary_frame v h
  rw [e]
  cases k <;> rfl

theorem State.sp_setPair_ordinary {s : State} {a : Byte} (k : Stack) (v : Word) (h : s.ordinary a = true)
    (h' : s.ordinary (a + 1) = true) : (s.setPair a v).sp k = s.sp k := by
  rw [State.setPair, State.sp_setReg_ordinary _ _ (by rw [State.ordinary_setReg_ordinary _ h, h']),
    State.sp_setReg_ordinary _ _ h]

@[simp] theorem State.sp_setMemByte (s : State) (k : Stack) (sp : Space) (a : Word) (v : Byte) :
    (s.setMemByte sp a v).sp k = s.sp k := by cases k <;> simp [State.sp]

@[simp] theorem State.sp_setMemWord (s : State) (k : Stack) (sp : Space) (a v : Word) :
    (s.setMemWord sp a v).sp k = s.sp k := by simp [State.setMemWord]

@[simp] theorem State.sp_setSpLow (s : State) (k : Stack) (v : Byte) :
    (s.setSpLow k v).sp k = word (s.sp k).hi v := by simp [State.setSpLow]

@[simp] theorem State.inRegfile_setPair (s : State) (k : Stack) (a : Byte) (v : Word) :
    (s.setPair a v).inRegfile k = s.inRegfile k := by simp [State.setPair]

@[simp] theorem State.spLow_setSp (s : State) (k : Stack) (v : Word) : (s.setSp k v).spLow k = v.lo := by
  simp [State.spLow]

@[simp] theorem State.setPair_mem (s : State) (a : Byte) (v : Word) : (s.setPair a v).mem = s.mem := by
  simp [State.setPair]

@[simp] theorem State.memWord_setSp (s : State) (k : Stack) (v : Word) (role : ReadRole) (sp : Space) (a : Word) :
    (s.setSp k v).memWord role sp a = s.memWord role sp a := by cases k <;> rfl

theorem State.memWord_setPair_ordinary {s : State} {b : Byte} (v : Word) (h : s.ordinary b = true)
    (h' : s.ordinary (b + 1) = true) (role : ReadRole) (sp : Space) (a : Word) :
    (s.setPair b v).memWord role sp a = s.memWord role sp a := by
  obtain ⟨f, g, e⟩ := State.setPair_ordinary_frame v h h'
  rw [e]
  rfl

/-! ### The two registers of a pair -/

/-- Resolving an address keeps its lowest bit. -/
theorem State.addr_toNat_mod_two (s : State) (a : Byte) : (s.addr a).toNat % 2 = a.toNat % 2 := by
  unfold State.addr
  split
  · have hlow := toNat_loNib a
    rw [State.working_toNat]
    split_ifs <;> omega
  · rfl

theorem State.addr_ne_addr_succ (s : State) (a : Byte) : s.addr a ≠ s.addr (a + 1) := by
  intro e
  have hone : (1 : Byte).toNat = 1 := rfl
  have h := s.addr_toNat_mod_two a
  rw [e, s.addr_toNat_mod_two (a + 1), BitVec.toNat_add, hone] at h
  omega

theorem State.pair_setPair_ordinary {s : State} {a : Byte} (v : Word) (h : s.ordinary a = true)
    (h' : s.ordinary (a + 1) = true) : (s.setPair a v).pair a = v := by
  rw [State.pair, State.reg_setPair_ordinary v h h', State.reg_setPair_ordinary v h h', if_pos rfl,
    if_neg (s.addr_ne_addr_succ a), if_pos rfl, word_hi_lo]

theorem State.pair_setSp_ordinary {s : State} {a : Byte} (k : Stack) (v : Word) (h : s.ordinary a = true)
    (h' : s.ordinary (a + 1) = true) : (s.setSp k v).pair a = s.pair a := by
  rw [State.pair, State.reg_setSp_ordinary k v h, State.reg_setSp_ordinary k v h', State.pair]

/-! ### The window -/

/-- The part of the state that says which registers the working registers are (10_state.md R24). -/
def State.window (s : State) : BitVec 5 × BitVec 5 × Bool := (s.rp0, s.rp1, s.twin)

theorem State.addr_eq_of_window {s t : State} (h : t.window = s.window) (a : Byte) : t.addr a = s.addr a := by
  simp only [State.window, Prod.mk.injEq] at h
  obtain ⟨h0, h1, htwin⟩ := h
  simp only [State.addr, State.working, h0, h1, htwin]

theorem State.reachable_eq_of_window {s t : State} (h : t.window = s.window) (a : Byte) :
    t.reachable a = s.reachable a := by
  rw [State.reachable, State.blocked, State.addr_eq_of_window h, State.reachable, State.blocked]

theorem State.ordinary_eq_of_window {s t : State} (h : t.window = s.window) (a : Byte) :
    t.ordinary a = s.ordinary a := by
  rw [State.ordinary, State.reachable_eq_of_window h, State.addr_eq_of_window h, State.ordinary]

/-- A write to a register makes of the window what the window before it says. -/
theorem State.window_setReg_eq_of_window {s t : State} (h : t.window = s.window) (a v : Byte) :
    (t.setReg a v).window = (s.setReg a v).window := by
  rw [State.setReg, State.addr_eq_of_window h, State.setReg]
  simp only [State.window, Prod.mk.injEq] at h
  obtain ⟨h0, h1, htwin⟩ := h
  cases hrole : regRole (s.addr a) <;> simp [State.setCell, State.window, hrole, h0, h1, htwin]

theorem State.pairSettable_eq_of_window {s t : State} (h : t.window = s.window) (a : Byte) (v : Word) :
    t.pairSettable a v = s.pairSettable a v := by
  rw [State.pairSettable, State.reachable_eq_of_window h,
    State.reachable_eq_of_window (State.window_setReg_eq_of_window h a v.hi), State.pairSettable]

@[simp] theorem State.window_setSp (s : State) (k : Stack) (v : Word) : (s.setSp k v).window = s.window := by
  cases k <;> rfl

@[simp] theorem State.window_setSpLow (s : State) (k : Stack) (v : Byte) : (s.setSpLow k v).window = s.window := by
  cases k <;> rfl

@[simp] theorem State.window_setMemByte (s : State) (sp : Space) (a : Word) (v : Byte) :
    (s.setMemByte sp a v).window = s.window := by simp [State.window]

@[simp] theorem State.window_setMemWord (s : State) (sp : Space) (a v : Word) :
    (s.setMemWord sp a v).window = s.window := by simp [State.window]

theorem State.window_setReg_ordinary {s : State} {a : Byte} (v : Byte) (h : s.ordinary a = true) :
    (s.setReg a v).window = s.window := by
  obtain ⟨f, g, e⟩ := State.setReg_ordinary_frame v h
  rw [e]
  rfl

theorem State.window_setPair_ordinary {s : State} {a : Byte} (v : Word) (h : s.ordinary a = true)
    (h' : s.ordinary (a + 1) = true) : (s.setPair a v).window = s.window := by
  obtain ⟨f, g, e⟩ := State.setPair_ordinary_frame v h h'
  rw [e]
  rfl

/-! ### The top of a stack (43_stack.md R301, R303) -/

theorem State.top8_in_memory {s : State} {k : Stack} (hr : s.inRegfile k = false) :
    s.top8 k = s.memByte .source .data (s.sp k) := if_neg (by simp [hr])

theorem State.top16_in_memory {s : State} {k : Stack} (hr : s.inRegfile k = false) :
    s.top16 k = s.memWord .source .data (s.sp k) := if_neg (by simp [hr])

theorem State.top8_in_registers {s : State} {k : Stack} (hr : s.inRegfile k = true) :
    s.top8 k = s.reg (s.spLow k) := if_pos hr

theorem State.top16_in_registers {s : State} {k : Stack} (hr : s.inRegfile k = true) :
    s.top16 k = s.pair (s.spLow k) := if_pos hr

theorem State.dropped_in_memory {s : State} {k : Stack} (n : Byte) (hr : s.inRegfile k = false) :
    s.dropped k n = s.setSp k (s.sp k + n.zeroExtend 16) := if_neg (by simp [hr])

theorem State.dropped_in_registers {s : State} {k : Stack} (n : Byte) (hr : s.inRegfile k = true) :
    s.dropped k n = s.setSpLow k (s.spLow k + n) := if_pos hr

@[simp] theorem State.dropped_mem (s : State) (k : Stack) (n : Byte) : (s.dropped k n).mem = s.mem := by
  unfold State.dropped
  split <;> simp

/-! ### Places that keep what is pushed -/

section
variable {s : State} {k : Stack}

theorem State.ram_of_frameOk_one (h : s.frameOk k 1) (hr : s.inRegfile k = false) :
    memKind s.memRegions .data (s.translate .data (s.sp k - 1)) = .ram :=
  (h.1 hr).2 _ (by simp [State.frame])

theorem State.ordinary_of_frameOk_one (h : s.frameOk k 1) (hr : s.inRegfile k = true) :
    s.ordinary (s.spLow k - 1) = true := h.2 hr _ (by simp [State.frameRegs])

theorem State.ram_of_frameOk_two (h : s.frameOk k 2) (hr : s.inRegfile k = false) :
    memKind s.memRegions .data (s.translate .data (s.sp k - 2)) = .ram ∧
    memKind s.memRegions .data (s.translate .data (s.sp k - 2 + 1)) = .ram ∧
    s.translate .data (s.sp k - 2) ≠ s.translate .data (s.sp k - 2 + 1) := by
  have hnext : s.sp k - 2 + 1 = s.sp k - 1 := by bv_omega
  obtain ⟨hdistinct, hram⟩ := h.1 hr
  rw [hnext]
  exact ⟨hram _ (by simp [State.frame]), hram _ (by simp [State.frame]), by simpa [State.frame] using hdistinct⟩

theorem State.ordinary_of_frameOk_two (h : s.frameOk k 2) (hr : s.inRegfile k = true) :
    s.ordinary (s.spLow k - 2) = true ∧ s.ordinary (s.spLow k - 2 + 1) = true := by
  have hnext : s.spLow k - 2 + 1 = s.spLow k - 1 := by bv_omega
  rw [hnext]
  exact ⟨h.2 hr _ (by simp [State.frameRegs]), h.2 hr _ (by simp [State.frameRegs])⟩

/-! ### The pointer after a push and after the pop that undoes it -/

/-- The pointer of a stack after `n` bytes have been pushed (43_stack.md R300, R302). -/
def State.loweredSp (s : State) (k : Stack) (n : Byte) : Word :=
  if s.inRegfile k then word (s.sp k).hi (s.spLow k - n) else s.sp k - n.zeroExtend 16

/-- Popping as many bytes as the pointer was lowered by brings the pointer back. -/
theorem State.dropped_of_loweredSp {t : State} {n : Byte} (hr : t.inRegfile k = s.inRegfile k)
    (hsp : t.sp k = s.loweredSp k n) : t.dropped k n = t.setSp k (s.sp k) := by
  cases hk : s.inRegfile k
  · rw [State.loweredSp, if_neg (by simp [hk])] at hsp
    rw [State.dropped_in_memory _ (hr.trans hk), hsp, BitVec.sub_add_cancel]
  · rw [State.loweredSp, if_pos hk] at hsp
    rw [State.dropped_in_registers _ (hr.trans hk), State.setSpLow, State.spLow, hsp, Word.hi_word, Word.lo_word,
      BitVec.sub_add_cancel, State.spLow, word_hi_lo]

/-! ### Byte pushes (43_stack.md R300 to R303) -/

theorem State.pushed8_in_memory (v : Byte) (hr : s.inRegfile k = false) :
    s.pushed8 k v = (s.setSp k (s.sp k - 1)).setMemByte .data (s.sp k - 1) v := by simp [State.pushed8, hr]

theorem State.pushed8_in_registers (v : Byte) (hr : s.inRegfile k = true) :
    s.pushed8 k v = (s.setSpLow k (s.spLow k - 1)).setReg (s.spLow k - 1) v := by simp [State.pushed8, hr]

@[simp] theorem State.inRegfile_pushed8 (s : State) (k : Stack) (v : Byte) :
    (s.pushed8 k v).inRegfile k = s.inRegfile k := by
  unfold State.pushed8
  split <;> simp

section
variable (v : Byte) (h : s.frameOk k 1)
include h

theorem State.push8Ok_of_frameOk : s.push8Ok k = true := by
  cases hr : s.inRegfile k
  · simp [State.push8Ok, hr]
  · rw [State.push8Ok, State.reachable_of_ordinary (State.ordinary_of_frameOk_one h hr), Bool.or_true]

theorem State.sp_pushed8 : (s.pushed8 k v).sp k = s.loweredSp k 1 := by
  cases hr : s.inRegfile k
  · simp [State.pushed8_in_memory v hr, State.loweredSp, hr]
  · have hplace := State.ordinary_of_frameOk_one h hr
    rw [State.pushed8_in_registers v hr, State.sp_setReg_ordinary _ _ (by simpa using hplace)]
    simp [State.loweredSp, hr]

theorem State.spLow_pushed8 (hr : s.inRegfile k = true) : (s.pushed8 k v).spLow k = s.spLow k - 1 := by
  rw [State.spLow, State.sp_pushed8 v h, State.loweredSp, if_pos hr, Word.lo_word]

theorem State.window_pushed8 : (s.pushed8 k v).window = s.window := by
  cases hr : s.inRegfile k
  · simp [State.pushed8_in_memory v hr]
  · have hplace := State.ordinary_of_frameOk_one h hr
    rw [State.pushed8_in_registers v hr, State.window_setReg_ordinary _ (by simpa using hplace),
      State.window_setSpLow]

theorem State.dropped_pushed8 : (s.pushed8 k v).dropped k 1 = (s.pushed8 k v).setSp k (s.sp k) :=
  State.dropped_of_loweredSp (by simp) (State.sp_pushed8 v h)

theorem State.pop8Ok_pushed8 : (s.pushed8 k v).pop8Ok k = true := by
  cases hr : s.inRegfile k
  · simp [State.pop8Ok, hr]
  · rw [State.pop8Ok, State.reachable_eq_of_window (State.window_pushed8 v h), State.spLow_pushed8 v h hr,
      State.reachable_of_ordinary (State.ordinary_of_frameOk_one h hr), Bool.or_true]

/-- The byte pushed is on top. -/
theorem State.top8_pushed8 : (s.pushed8 k v).top8 k = v := by
  cases hr : s.inRegfile k
  · have hram := State.ram_of_frameOk_one h hr
    have hsp : (s.pushed8 k v).sp k = s.sp k - 1 := by simp [State.pushed8_in_memory v hr]
    rw [State.top8_in_memory (by simpa using hr), hsp, State.pushed8_in_memory v hr]
    exact State.memByte_setMemByte_same v (by simpa using hram) .source
  · have hplace := State.ordinary_of_frameOk_one h hr
    rw [State.top8_in_registers (by simpa using hr), State.spLow_pushed8 v h hr,
      State.pushed8_in_registers v hr, State.reg_setReg_ordinary _ (by simpa using hplace), if_pos rfl]

end

/-! ### Word pushes (43_stack.md R300 to R303) -/

theorem State.pushed16_in_memory (w : Word) (hr : s.inRegfile k = false) :
    s.pushed16 k w = (s.setSp k (s.sp k - 2)).setMemWord .data (s.sp k - 2) w := by simp [State.pushed16, hr]

@[simp] theorem State.inRegfile_pushed16 (s : State) (k : Stack) (w : Word) :
    (s.pushed16 k w).inRegfile k = s.inRegfile k := by
  unfold State.pushed16 State.pushedHigh
  split <;> simp

section
variable (w : Word) (h : s.frameOk k 2)
include h

theorem State.spLow_pushedHigh (hr : s.inRegfile k = true) : (s.pushedHigh k w).spLow k = s.spLow k - 2 := by
  obtain ⟨hplace, -⟩ := State.ordinary_of_frameOk_two h hr
  rw [State.spLow, State.pushedHigh, State.sp_setReg_ordinary _ _ (by simpa using hplace)]
  simp

/-- In ordinary registers the second byte goes next to the first. -/
theorem State.pushed16_in_registers (hr : s.inRegfile k = true) :
    s.pushed16 k w = (s.setSpLow k (s.spLow k - 2)).setPair (s.spLow k - 2) w := by
  rw [State.pushed16, if_pos hr, State.spLow_pushedHigh w h hr]
  rfl

theorem State.push16Ok_of_frameOk : s.push16Ok k w = true := by
  cases hr : s.inRegfile k
  · simp [State.push16Ok, hr]
  · obtain ⟨hhigh, hlow⟩ := State.ordinary_of_frameOk_two h hr
    rw [State.push16Ok, State.spLow_pushedHigh w h hr, State.pushedHigh,
      State.reachable_setReg_ordinary _ (by simpa using hhigh), State.reachable_setSpLow,
      State.reachable_of_ordinary hhigh, State.reachable_of_ordinary hlow, Bool.and_true, Bool.or_true]

theorem State.sp_pushed16 : (s.pushed16 k w).sp k = s.loweredSp k 2 := by
  cases hr : s.inRegfile k
  · simp [State.pushed16_in_memory w hr, State.loweredSp, hr]
  · obtain ⟨hhigh, hlow⟩ := State.ordinary_of_frameOk_two h hr
    rw [State.pushed16_in_registers w h hr, State.sp_setPair_ordinary _ _ (by simpa using hhigh) (by simpa using hlow)]
    simp [State.loweredSp, hr]

theorem State.spLow_pushed16 (hr : s.inRegfile k = true) : (s.pushed16 k w).spLow k = s.spLow k - 2 := by
  rw [State.spLow, State.sp_pushed16 w h, State.loweredSp, if_pos hr, Word.lo_word]

theorem State.window_pushed16 : (s.pushed16 k w).window = s.window := by
  cases hr : s.inRegfile k
  · simp [State.pushed16_in_memory w hr]
  · obtain ⟨hhigh, hlow⟩ := State.ordinary_of_frameOk_two h hr
    rw [State.pushed16_in_registers w h hr,
      State.window_setPair_ordinary _ (by simpa using hhigh) (by simpa using hlow), State.window_setSpLow]

theorem State.dropped_pushed16 : (s.pushed16 k w).dropped k 2 = (s.pushed16 k w).setSp k (s.sp k) :=
  State.dropped_of_loweredSp (by simp) (State.sp_pushed16 w h)

theorem State.pop16Ok_pushed16 : (s.pushed16 k w).pop16Ok k = true := by
  cases hr : s.inRegfile k
  · simp [State.pop16Ok, hr]
  · obtain ⟨hhigh, hlow⟩ := State.ordinary_of_frameOk_two h hr
    have hwindow := State.window_pushed16 w h
    rw [State.pop16Ok, State.spLow_pushed16 w h hr, State.reachable_eq_of_window hwindow,
      State.reachable_eq_of_window hwindow, State.reachable_of_ordinary hhigh, State.reachable_of_ordinary hlow,
      Bool.and_true, Bool.or_true]

/-- The word pushed is on top. -/
theorem State.top16_pushed16 : (s.pushed16 k w).top16 k = w := by
  cases hr : s.inRegfile k
  · obtain ⟨hhigh, hlow, happart⟩ := State.ram_of_frameOk_two h hr
    have hsp : (s.pushed16 k w).sp k = s.sp k - 2 := by simp [State.pushed16_in_memory w hr]
    rw [State.top16_in_memory (by simpa using hr), hsp, State.pushed16_in_memory w hr]
    obtain ⟨-, -, hword⟩ := wordsLieHighByteFirst (s.setSp k (s.sp k - 2)) _ .data (s.sp k - 2) w .source rfl
      (by simpa using hhigh) (by simpa using hlow) (by simpa using happart)
    exact hword
  · obtain ⟨hhigh, hlow⟩ := State.ordinary_of_frameOk_two h hr
    rw [State.top16_in_registers (by simpa using hr), State.spLow_pushed16 w h hr,
      State.pushed16_in_registers w h hr,
      State.pair_setPair_ordinary w (by simpa using hhigh) (by simpa using hlow)]

end

end

/-- Settles O42: the pop finds the value on top and brings the pointer back, and the push has not moved the window that
the destination lies in. -/
theorem popUndoesPush : Obligations.PopUndoesPush := by
  refine fun k s t => ⟨?byte, ?word⟩
  case byte =>
    intro f r hframe hread hwrite hpush
    rw [exec_ofPush_eq hread, push8_eq _ (State.push8Ok_of_frameOk hframe), Res.outcome_ok, Host.Outcome.next.injEq]
      at hpush
    subst hpush
    have hreach : ((s.pushed8 k (s.pushValue f)).dropped k 1).reachable r = true := by
      rw [State.reachable_dropped, State.reachable_eq_of_window (State.window_pushed8 _ hframe), hwrite]
    have hpop := popByteFrom_eq (t := .direct r) nofun (State.pop8Ok_pushed8 _ hframe) hreach
    rw [exec_ofPop, hpop, State.top8_pushed8 _ hframe, State.dropped_pushed8 _ hframe, Res.outcome_ok, State.target]
  case word =>
    intro i w rr hframe hi hwrite hpush
    rw [exec_of_pushedWord hi, push16_eq (State.push16Ok_of_frameOk w hframe), Res.outcome_ok,
      Host.Outcome.next.injEq] at hpush
    subst hpush
    have htop := State.top16_pushed16 w hframe
    have hdropped := State.dropped_pushed16 w hframe
    have hwindow : ((s.pushed16 k w).setSp k (s.sp k)).window = s.window := by
      rw [State.window_setSp, State.window_pushed16 w hframe]
    have hset : ((s.pushed16 k w).dropped k 2).pairSettable rr ((s.pushed16 k w).top16 k) = true := by
      rw [htop, hdropped, State.pairSettable_eq_of_window hwindow, hwrite]
    rw [exec_ofPopw, popWordFrom_eq (State.pop16Ok_pushed16 w hframe) hset, htop, hdropped, Res.outcome_ok]

end Sys2Proof.Machine
end

section
/-! SUPPORT. LINK and UNLINK with a frame pointer in the registers below group D (spec/43_stack.md R315 to R318). -/

namespace Sys2Proof.Machine

/-! ### Registers below group D (10_state.md R21) -/

theorem plain_of_below_groupD : ∀ a : Byte, a.toNat < 208 → isGroupD a = false ∧ regRole a = .plain := by decide

theorem State.addr_of_below_groupD (s : State) {a : Byte} (h : a.toNat < 208) : s.addr a = a := by
  obtain ⟨hgroup, -⟩ := plain_of_below_groupD a h
  simp [State.addr, hgroup]

theorem State.ordinary_of_below_groupD (s : State) {a : Byte} (h : a.toNat < 208) : s.ordinary a = true := by
  obtain ⟨hgroup, hrole⟩ := plain_of_below_groupD a h
  simp [State.ordinary, State.reachable, State.blocked, s.addr_of_below_groupD h, hgroup, hrole]

/-- The second register of a well-formed pair below group D lies below group D too. -/
theorem RegPair.succ_below_groupD :
    ∀ rr : RegPair, RegPair.wf rr = true → rr.toNat < 208 → (rr + 1).toNat < 208 := by decide

section
variable {k : Stack} {rr : RegPair} {n : Byte} {s t : State}

/-! ### A stack in memory -/

section
variable (hhi : rr.toNat < 208) (hlo : (rr + 1).toNat < 208) (hr : s.inRegfile k = false)
include hhi hlo hr

/-- LINK leaves the pair pointing to the saved frame pointer. -/
theorem linkOn_saves_in_memory (h : s.frameOk k 2) (hlink : linkOn k rr n s = .ok t) :
    t.inRegfile k = false ∧ t.pair rr = s.sp k - 2 ∧ t.memWord .source .data (s.sp k - 2) = s.pair rr := by
  have hhigh : ∀ u : State, u.ordinary rr = true := fun u => u.ordinary_of_below_groupD hhi
  have hlow : ∀ u : State, u.ordinary (rr + 1) = true := fun u => u.ordinary_of_below_groupD hlo
  have hsp : (s.pushed16 k (s.pair rr)).sp k = s.sp k - 2 := by simp [State.pushed16_in_memory _ hr]
  have htop := State.top16_pushed16 (s.pair rr) h
  rw [State.top16_in_memory (by simpa using hr), hsp] at htop
  rw [linkOn_in_memory n hr (State.pairReachable_of_ordinary (hhigh s) (hlow s)) rfl
    (State.pairSettable_of_ordinary _ (hhigh _) (hlow _)) rfl, Except.ok.injEq] at hlink
  subst hlink
  refine ⟨by simpa using hr, ?_, ?_⟩
  · rw [State.pair_setSp_ordinary _ _ (hhigh _) (hlow _), State.pair_setPair_ordinary _ (hhigh _) (hlow _), hsp]
  · rw [State.memWord_setSp, State.memWord_setPair_ordinary _ (hhigh _) (hlow _), htop]

/-- UNLINK takes the pointer from the pair and the pair from the word it points to. -/
theorem unlinkFrom_restores_in_memory : ∃ u, unlinkFrom k rr s = .ok u ∧ u.sp k = s.pair rr + 2 ∧
    u.pair rr = s.memWord .source .data (s.pair rr) ∧ u.mem = s.mem := by
  have hhigh : ∀ u : State, u.ordinary rr = true := fun u => u.ordinary_of_below_groupD hhi
  have hlow : ∀ u : State, u.ordinary (rr + 1) = true := fun u => u.ordinary_of_below_groupD hlo
  have hr1 : (s.setSp k (s.pair rr)).inRegfile k = false := by simpa using hr
  refine ⟨_, unlinkFrom_in_memory hr (State.pairReachable_of_ordinary (hhigh s) (hlow s)) rfl rfl
    (State.pairSettable_of_ordinary _ (hhigh _) (hlow _)), ?_, ?_, ?_⟩
  · rw [State.sp_setPair_ordinary _ _ (hhigh _) (hlow _), State.dropped_in_memory _ hr1, State.sp_setSp,
      State.sp_setSp]
    rfl
  · rw [State.pair_setPair_ordinary _ (hhigh _) (hlow _), State.top16_in_memory hr1, State.sp_setSp,
      State.memWord_setSp]
  · simp

end

/-! ### A stack in the register file -/

section
variable (hlo : (rr + 1).toNat < 208) (hr : s.inRegfile k = true)
include hlo hr

/-- LINK leaves the second register of the pair pointing to its saved value. -/
theorem linkOn_saves_in_registers (h : s.frameOk k 1) (hapart : s.addr (s.spLow k - 1) ≠ rr + 1)
    (hlink : linkOn k rr n s = .ok t) :
    t.inRegfile k = true ∧ t.ordinary (s.spLow k - 1) = true ∧ t.reg (rr + 1) = s.spLow k - 1 ∧
      t.reg (s.spLow k - 1) = s.reg (rr + 1) := by
  have hlow : ∀ u : State, u.ordinary (rr + 1) = true := fun u => u.ordinary_of_below_groupD hlo
  have hself : ∀ u : State, u.addr (rr + 1) = rr + 1 := fun u => u.addr_of_below_groupD hlo
  have hreach : ∀ u : State, u.reachable (rr + 1) = true := fun u => State.reachable_of_ordinary (hlow u)
  have hsp := State.spLow_pushed8 (s.reg (rr + 1)) h hr
  have hwindow := State.window_pushed8 (s.reg (rr + 1)) h
  have htop := State.top8_pushed8 (s.reg (rr + 1)) h
  rw [State.top8_in_registers (by simpa using hr), hsp] at htop
  rw [linkOn_in_registers n hr (hreach s) (State.push8Ok_of_frameOk h) rfl (hreach _) rfl, hsp, Except.ok.injEq]
    at hlink
  subst hlink
  have hplace : ((s.pushed8 k (s.reg (rr + 1))).setReg (rr + 1) (s.spLow k - 1)).ordinary (s.spLow k - 1) = true := by
    rw [State.ordinary_setReg_ordinary _ (hlow _), State.ordinary_eq_of_window hwindow,
      State.ordinary_of_frameOk_one h hr]
  refine ⟨by simpa using hr, by rw [State.ordinary_setSp, hplace], ?_, ?_⟩
  · rw [State.reg_setSp_ordinary _ _ (hlow _), State.reg_setReg_ordinary _ (hlow _), if_pos rfl]
  · rw [State.reg_setSp_ordinary _ _ hplace, State.reg_setReg_ordinary _ (hlow _), hself,
      State.addr_eq_of_window hwindow, if_neg hapart, htop]

/-- UNLINK takes the low byte of the pointer from the register and the register from the one it points to. -/
theorem unlinkFrom_restores_in_registers (hplace : s.ordinary (s.reg (rr + 1)) = true) :
    ∃ u, unlinkFrom k rr s = .ok u ∧ u.spLow k = s.reg (rr + 1) + 1 ∧
      u.reg (rr + 1) = s.reg (s.reg (rr + 1)) ∧ u.mem = s.mem := by
  have hlow : ∀ u : State, u.ordinary (rr + 1) = true := fun u => u.ordinary_of_below_groupD hlo
  have hreach : ∀ u : State, u.reachable (rr + 1) = true := fun u => State.reachable_of_ordinary (hlow u)
  have hr1 : (s.setSpLow k (s.reg (rr + 1))).inRegfile k = true := by simpa using hr
  have hpop : (s.setSpLow k (s.reg (rr + 1))).pop8Ok k = true := by
    rw [State.pop8Ok, State.spLow_setSpLow, State.reachable_setSpLow, State.reachable_of_ordinary hplace,
      Bool.or_true]
  refine ⟨_, unlinkFrom_in_registers hr (hreach s) rfl hpop (hreach _) rfl, ?_, ?_, ?_⟩
  · rw [State.spLow_setSp, Word.lo_word, State.spLow, State.sp_setReg_ordinary _ _ (hlow _),
      State.dropped_in_registers _ hr1, State.sp_setSpLow, Word.lo_word, State.spLow_setSpLow]
  · rw [State.reg_setSp_ordinary _ _ (hlow _), State.reg_setReg_ordinary _ (hlow _), if_pos rfl,
      State.top8_in_registers hr1, State.spLow_setSpLow]
    exact State.reg_setSp_ordinary _ _ hplace
  · simp

end

end

/-- Settles O43: LINK leaves the frame pointer at the place of its saved value, and UNLINK starts from there, wherever
the pointer stands. -/
theorem unlinkUndoesLink : Obligations.UnlinkUndoesLink := by
  intro k rr n p s t hwf hhi hlink
  have hlo := RegPair.succ_below_groupD rr hwf hhi
  rw [exec_ofLink, Res.outcome_eq_next] at hlink
  simp only [exec_ofUnlink, Res.outcome_eq_next]
  refine ⟨fun hr hframe => ?memory, fun hr hframe hapart => ?registers⟩
  case memory =>
    obtain ⟨hrt, hpair, hsaved⟩ := linkOn_saves_in_memory hhi hlo hr hframe hlink
    have hpair' : (t.setSp k p).pair rr = s.sp k - 2 := by
      rw [State.pair_setSp_ordinary _ _ (t.ordinary_of_below_groupD hhi) (t.ordinary_of_below_groupD hlo), hpair]
    obtain ⟨u, hunlink, hsp, hback, hmem⟩ :=
      unlinkFrom_restores_in_memory (s := t.setSp k p) hhi hlo (by simpa using hrt)
    refine ⟨u, hunlink, ?_, ?_, by simpa using hmem⟩
    · rw [hsp, hpair', BitVec.sub_add_cancel]
    · rw [hback, hpair', State.memWord_setSp, hsaved]
  case registers =>
    obtain ⟨hrt, hplace, hreg, hsaved⟩ := linkOn_saves_in_registers hlo hr hframe hapart hlink
    have hreg' : (t.setSp k p).reg (rr + 1) = s.spLow k - 1 := by
      rw [State.reg_setSp_ordinary _ _ (t.ordinary_of_below_groupD hlo), hreg]
    obtain ⟨u, hunlink, hsp, hback, hmem⟩ :=
      unlinkFrom_restores_in_registers (s := t.setSp k p) hlo (by simpa using hrt)
        (by rw [hreg', State.ordinary_setSp, hplace])
    refine ⟨u, hunlink, ?_, ?_, by simpa using hmem⟩
    · rw [hsp, hreg', BitVec.sub_add_cancel]
    · rw [hback, hreg', State.reg_setSp_ordinary _ _ hplace, hsaved]

end Sys2Proof.Machine
end

section
/-! SUPPORT. Multiplication and division, where each register access goes through (spec/44_muldiv.md R340, R341). -/

namespace Sys2Proof.Machine

/-! ### Answers of the writes to working registers -/

theorem writeW_eq {s : State} {n : WReg} (v : Byte) (h : s.wOk n = true) :
    writeW n v s = .ok (s.setReg (wregAddr n) v) := writeReg_eq v h

theorem writeWW_eq {s : State} {n : WPair} {v : Word} (h : s.pairSettable (wregAddr n) v = true) :
    writeWW n v s = .ok (s.setPair (wregAddr n) v) := writePair_eq h

/-! ### MUL (44_muldiv.md R340) -/

theorem exec_mul (rrd : WPair) (rs : WReg) (s : State) :
    exec (.mul rrd rs) s = Res.outcome (multiply rrd rs s) := rfl

theorem mul8_eq {a b : Byte} {p : Word} (hp : p.toNat = a.toNat * b.toNat) (h : Option Bool) : mul8 a b h =
    ⟨p, { c := some (p.getLsbD 0), z := some (decide (p.toNat / 256 = 0)), s := some (p.getLsbD 15)
          v := some (decide (p.toNat % 256 = 0)), d := some false, h := h }⟩ := by
  have hvalue : BitVec.ofNat 16 (a.toNat * b.toNat) = p := by rw [← hp, BitVec.ofNat_toNat, BitVec.setWidth_eq]
  have hzero : ∀ x : Byte, (x == 0) = decide (x.toNat = 0) := by decide
  simp only [mul8, hvalue, hzero, Word.hi_toNat, Word.lo_toNat, msb_word]

/-- Settles O44: the product of two bytes fits the pair, and its flags are read off its value. -/
theorem mulCompletes : Obligations.MulCompletes := by
  intro rrd rs p s _ hlow hsource hp hwrite
  have hproduct := mul8_eq hp (s.freeFlag .h)
  rw [exec_mul, multiply, readW_eq hlow, Res.bind_ok, readW_eq hsource, Res.bind_ok]
  simp only [hproduct]
  rw [writeWW_eq hwrite, Res.bind_ok, Res.outcome_ok]

/-! ### DIV (44_muldiv.md R341) -/

theorem exec_div (rrd : WPair) (rs : WReg) (s : State) :
    exec (.div rrd rs) s = Res.outcome (divide rrd rs s) := rfl

section
variable {rrd : WPair} {rs : WReg} {s : State} (hpair : s.wwOk rrd = true) (hsource : s.wOk rs = true)
include hpair hsource

theorem divide_of_large_quotient (hpos : 0 < (s.w rs).toNat) (hlarge : 256 * (s.w rs).toNat ≤ (s.ww rrd).toNat) :
    divide rrd rs s = .ok (s.setFlags (divOverflowFlags s)) := by
  have hne : s.w rs ≠ 0 := fun e => absurd hpos (by rw [e]; decide)
  have hhigh : (s.w rs).toNat ≤ (s.ww rrd).hi.toNat := by
    rw [Word.hi_toNat]
    omega
  rw [divide, readWW_eq hpair, Res.bind_ok, readW_eq hsource, Res.bind_ok, if_neg hne, if_pos hhigh]

/-- Quotient and remainder are the only numbers that satisfy R341's equation and bound. -/
theorem divide_of_byte_quotient {q m : Byte} {s1 : State}
    (hsum : (s.ww rrd).toNat = q.toNat * (s.w rs).toNat + m.toNat) (hm : m.toNat < (s.w rs).toNat)
    (hs1 : s1 = s.setReg (wregAddr rrd) m) (hlow : s1.wOk (rrd + 1) = true) :
    divide rrd rs s = .ok ((s1.setReg (wregAddr (rrd + 1)) q).setFlags (divFlags q.toNat m.toNat s)) := by
  have hne : s.w rs ≠ 0 := fun e => absurd hm (by rw [e]; exact Nat.not_lt_zero _)
  have hfits : ¬(s.w rs).toNat ≤ (s.ww rrd).hi.toNat := by
    have hbound : q.toNat * (s.w rs).toNat ≤ 255 * (s.w rs).toNat := Nat.mul_le_mul_right _ (by omega)
    rw [Word.hi_toNat]
    omega
  obtain ⟨hquotient, hremainder⟩ : (s.ww rrd).toNat / (s.w rs).toNat = q.toNat ∧
      (s.ww rrd).toNat % (s.w rs).toNat = m.toNat :=
    (Nat.div_mod_unique (by omega)).2 ⟨by rw [hsum, Nat.mul_comm, Nat.add_comm], hm⟩
  have hhigh : s.wOk rrd = true := by
    rw [State.wwOk, State.pairReachable, Bool.and_eq_true] at hpair
    exact hpair.1
  rw [divide, readWW_eq hpair, Res.bind_ok, readW_eq hsource, Res.bind_ok, if_neg hne, if_neg hfits]
  simp only [hquotient, hremainder, BitVec.ofNat_toNat, BitVec.setWidth_eq]
  rw [writeW_eq m hhigh, Res.bind_ok, ← hs1, writeW_eq q hlow, Res.bind_ok]

end

/-- Settles O45: the quotient fits a byte exactly where the high byte of the pair is below the divisor. -/
theorem divCompletes : Obligations.DivCompletes := by
  rintro rrd rs _ _ s _ hpair hsource rfl rfl
  refine ⟨fun q m s1 hsum hm hs1 hlow => ?fits, fun hpos hlarge => ?large⟩
  case fits =>
    have hzero : ∀ x : Byte, decide (x.toNat = 0) = decide (x = 0) := by decide
    rw [exec_div, divide_of_byte_quotient hpair hsource hsum hm hs1 hlow, Res.outcome_ok, divFlags, hzero, hzero]
  case large => rw [exec_div, divide_of_large_quotient hpair hsource hpos hlarge, Res.outcome_ok, divOverflowFlags]

end Sys2Proof.Machine
end

section
/-! SUPPORT. DIVWS: one step, and sixteen of them with an RLCW as a division (spec/44_muldiv.md R342). -/

namespace Sys2Proof.Machine

/-! ### Pairs of ordinary registers and the flags -/

/-- An ordinary register holds no flag. -/
theorem State.reg_setFlags_ordinary {s : State} {a : Byte} (u : FlagUpdate) (h : s.ordinary a = true) :
    (s.setFlags u).reg a = s.reg a := by
  have haddr : (s.setFlags u).addr a = s.addr a := rfl
  rw [State.reg, haddr, State.reg]
  simp only [State.ordinary, Bool.and_eq_true, Bool.or_eq_true, decide_eq_true_eq] at h
  obtain ⟨-, hrole | hrole⟩ := h <;> simp [State.cell, hrole, State.pageKey]

/-- Both registers of the pair at `a` are ordinary. -/
def State.ordinaryPair (s : State) (a : Byte) : Prop := s.ordinary a = true ∧ s.ordinary (a + 1) = true

/-- The pairs at `a` and at `b` have no register in common. -/
def State.pairsApart (s : State) (a b : Byte) : Prop :=
  (s.addr a ≠ s.addr b ∧ s.addr a ≠ s.addr (b + 1)) ∧ s.addr (a + 1) ≠ s.addr b ∧ s.addr (a + 1) ≠ s.addr (b + 1)

section
variable {s : State} {a b : Byte}

theorem State.pairsApart.symm (h : s.pairsApart a b) : s.pairsApart b a := by
  obtain ⟨⟨h00, h01⟩, h10, h11⟩ := h
  exact ⟨⟨h00.symm, h10.symm⟩, h01.symm, h11.symm⟩

theorem State.ordinaryPair_iff_of_window {t : State} (h : t.window = s.window) :
    t.ordinaryPair a ↔ s.ordinaryPair a := by
  simp only [State.ordinaryPair, State.ordinary_eq_of_window h]

theorem State.pairsApart_iff_of_window {t : State} (h : t.window = s.window) :
    t.pairsApart a b ↔ s.pairsApart a b := by
  simp only [State.pairsApart, State.addr_eq_of_window h]

theorem State.pair_setFlags_ordinary (u : FlagUpdate) (h : s.ordinaryPair a) :
    (s.setFlags u).pair a = s.pair a := by
  rw [State.pair, State.reg_setFlags_ordinary u h.1, State.reg_setFlags_ordinary u h.2, State.pair]

/-- A write to a pair leaves a pair without a common register alone. -/
theorem State.pair_setPair_apart (v : Word) (h : s.ordinaryPair a) (hab : s.pairsApart a b) :
    (s.setPair a v).pair b = s.pair b := by
  obtain ⟨⟨h00, h01⟩, h10, h11⟩ := hab
  rw [State.pair, State.reg_setPair_ordinary v h.1 h.2, State.reg_setPair_ordinary v h.1 h.2, if_neg h10.symm,
    if_neg h00.symm, if_neg h11.symm, if_neg h01.symm, State.pair]

theorem State.ordinaryPair_setPair (v : Word) (h : s.ordinaryPair a) (hb : s.ordinaryPair b) :
    (s.setPair a v).ordinaryPair b :=
  (State.ordinaryPair_iff_of_window (State.window_setPair_ordinary v h.1 h.2)).2 hb

theorem State.flag_setPair_ordinary (v : Word) (f : FlagName) (h : s.ordinaryPair a) :
    (s.setPair a v).flag f = s.flag f := by
  obtain ⟨_, _, hframe⟩ := State.setPair_ordinary_frame v h.1 h.2
  rw [hframe]
  rfl

end

/-! ### One step -/

/-- What DIVWS reads and writes: the two dividend pairs and its hidden state. -/
def State.dividend (s : State) (rrh rrl : WPair) : Word × Word × Nat := (s.ww rrh, s.ww rrl, s.divwsHidden)

/-- The state after DIVWS where each of its register accesses goes through. -/
def State.afterDivws (s : State) (rrh rrl : WPair) (r : Word × Word × Nat) : State :=
  { ((s.setPair (wregAddr rrh) r.1).setPair (wregAddr rrl) r.2.1).setFlags divwsFlags with divwsHidden := r.2.2 }

/-- What the step parameter makes of the dividend of a state (44_muldiv.md R342, 92_eei_decisions.md D21). -/
def State.divwsResult (s : State) (rrh rrl : WPair) (rrs : RegPair) : Word × Word × Nat :=
  Config.divwsStep (s.ww rrh) (s.ww rrl) (s.pair rrs) (s.flag .c) s.divwsHidden

theorem exec_divws (rrh rrl : WPair) (rrs : RegPair) (s : State) :
    exec (.divws rrh rrl rrs) s = Res.outcome (divideStep rrh rrl rrs s) := rfl

theorem exec_divws_next {rrh rrl : WPair} {rrs : RegPair} {s : State} {r : Word × Word × Nat}
    (hhigh : s.wwOk rrh = true) (hlow : s.wwOk rrl = true) (hdivisor : s.pairReachable rrs = true)
    (hr : r = s.divwsResult rrh rrl rrs) (hwrite : s.pairSettable (wregAddr rrh) r.1 = true)
    (hwrite' : (s.setPair (wregAddr rrh) r.1).pairSettable (wregAddr rrl) r.2.1 = true) :
    exec (.divws rrh rrl rrs) s = .next (s.afterDivws rrh rrl r) := by
  rw [exec_divws, divideStep, readWW_eq hhigh, Res.bind_ok, readWW_eq hlow, Res.bind_ok, readPair_eq hdivisor,
    Res.bind_ok, ← State.divwsResult, ← hr]
  simp only
  rw [writeWW_eq hwrite, Res.bind_ok, writeWW_eq hwrite', Res.bind_ok, Res.outcome_ok, State.afterDivws]

/-- The dividend pairs and the divisor are six ordinary registers. -/
structure State.DivwsReady (s : State) (rrh rrl : WPair) (rrs : RegPair) : Prop where
  high : s.ordinaryPair (wregAddr rrh)
  low : s.ordinaryPair (wregAddr rrl)
  divisor : s.ordinaryPair rrs
  high_low : s.pairsApart (wregAddr rrh) (wregAddr rrl)
  high_divisor : s.pairsApart (wregAddr rrh) rrs
  low_divisor : s.pairsApart (wregAddr rrl) rrs

section
variable {rrh rrl : WPair} {rrs : RegPair} {s : State}

theorem State.divwsReady_of_list
    (hordinary : ∀ a ∈ [wregAddr rrh, wregAddr rrh + 1, wregAddr rrl, wregAddr rrl + 1, rrs, rrs + 1],
      s.ordinary a = true)
    (hnodup : ([wregAddr rrh, wregAddr rrh + 1, wregAddr rrl, wregAddr rrl + 1, rrs, rrs + 1].map s.addr).Nodup) :
    s.DivwsReady rrh rrl rrs := by
  simp only [List.forall_mem_cons] at hordinary
  obtain ⟨hh, hh', hl, hl', hd, hd', -⟩ := hordinary
  simp only [List.map_cons, List.map_nil, List.nodup_cons, List.mem_cons, List.not_mem_nil, or_false, not_or]
    at hnodup
  obtain ⟨⟨-, hhl, hhl', hhd, hhd'⟩, ⟨hh'l, hh'l', hh'd, hh'd'⟩, ⟨-, hld, hld'⟩, ⟨hl'd, hl'd'⟩, -⟩ := hnodup
  exact ⟨⟨hh, hh'⟩, ⟨hl, hl'⟩, ⟨hd, hd'⟩, ⟨⟨hhl, hhl'⟩, hh'l, hh'l'⟩, ⟨⟨hhd, hhd'⟩, hh'd, hh'd'⟩,
    ⟨⟨hld, hld'⟩, hl'd, hl'd'⟩⟩

theorem State.DivwsReady.of_window {t : State} (h : s.DivwsReady rrh rrl rrs) (hw : t.window = s.window) :
    t.DivwsReady rrh rrl rrs where
  high := (State.ordinaryPair_iff_of_window hw).2 h.high
  low := (State.ordinaryPair_iff_of_window hw).2 h.low
  divisor := (State.ordinaryPair_iff_of_window hw).2 h.divisor
  high_low := (State.pairsApart_iff_of_window hw).2 h.high_low
  high_divisor := (State.pairsApart_iff_of_window hw).2 h.high_divisor
  low_divisor := (State.pairsApart_iff_of_window hw).2 h.low_divisor

section
variable (h : s.DivwsReady rrh rrl rrs)
include h

theorem State.DivwsReady.setPair (v : Word) : (s.setPair (wregAddr rrh) v).DivwsReady rrh rrl rrs :=
  h.of_window (State.window_setPair_ordinary v h.high.1 h.high.2)

theorem State.DivwsReady.exec_eq :
    exec (.divws rrh rrl rrs) s = .next (s.afterDivws rrh rrl (s.divwsResult rrh rrl rrs)) := by
  have h' := h.setPair (s.divwsResult rrh rrl rrs).1
  exact exec_divws_next (State.pairReachable_of_ordinary h.high.1 h.high.2)
    (State.pairReachable_of_ordinary h.low.1 h.low.2) (State.pairReachable_of_ordinary h.divisor.1 h.divisor.2) rfl
    (State.pairSettable_of_ordinary _ h.high.1 h.high.2) (State.pairSettable_of_ordinary _ h'.low.1 h'.low.2)

variable (r : Word × Word × Nat)

theorem State.DivwsReady.window_afterDivws : (s.afterDivws rrh rrl r).window = s.window := by
  have h' := h.setPair r.1
  exact (State.window_setPair_ordinary r.2.1 h'.low.1 h'.low.2).trans
    (State.window_setPair_ordinary r.1 h.high.1 h.high.2)

theorem State.DivwsReady.flag_c_afterDivws : (s.afterDivws rrh rrl r).flag .c = s.flag .c := by
  refine (State.flag_setFlags _ divwsFlags .c).trans ?_
  rw [State.flag_setPair_ordinary _ _ (h.setPair r.1).low, State.flag_setPair_ordinary _ _ h.high]
  rfl

/-- DIVWS makes of an ordinary pair what its two pair writes make of it. -/
theorem State.DivwsReady.pair_afterDivws {b : Byte} (hb : s.ordinaryPair b) : (s.afterDivws rrh rrl r).pair b =
    ((s.setPair (wregAddr rrh) r.1).setPair (wregAddr rrl) r.2.1).pair b := by
  have hhidden : ∀ (t : State) (n : Nat), { t with divwsHidden := n }.pair b = t.pair b := fun _ _ => rfl
  rw [State.afterDivws, hhidden, State.pair_setFlags_ordinary]
  exact State.ordinaryPair_setPair _ (h.setPair r.1).low (State.ordinaryPair_setPair _ h.high hb)

theorem State.DivwsReady.divisor_afterDivws : (s.afterDivws rrh rrl r).pair rrs = s.pair rrs := by
  have h' := h.setPair r.1
  rw [h.pair_afterDivws r h.divisor, State.pair_setPair_apart _ h'.low h'.low_divisor,
    State.pair_setPair_apart _ h.high h.high_divisor]

theorem State.DivwsReady.dividend_afterDivws : (s.afterDivws rrh rrl r).dividend rrh rrl = r := by
  have h' := h.setPair r.1
  have hhigh : (s.afterDivws rrh rrl r).ww rrh = r.1 := by
    rw [State.ww, h.pair_afterDivws r h.high, State.pair_setPair_apart _ h'.low h'.high_low.symm,
      State.pair_setPair_ordinary _ h.high.1 h.high.2]
  have hlow : (s.afterDivws rrh rrl r).ww rrl = r.2.1 := by
    rw [State.ww, h.pair_afterDivws r h.low, State.pair_setPair_ordinary _ h'.low.1 h'.low.2]
  rw [State.dividend, hhigh, hlow]
  rfl

end

/-! ### A run of steps -/

theorem divwsRun_succ (f : DivwsFun) (v : Word) (c : Bool) (i : Nat) : ∀ p : Word × Word × Nat,
    divwsRun f v c (i + 1) p =
      f (divwsRun f v c i p).1 (divwsRun f v c i p).2.1 v c (divwsRun f v c i p).2.2 := by
  induction i with
  | zero => exact fun p => rfl
  | succ i ih => exact fun p => ih (f p.1 p.2.1 v c p.2.2)

/-- The state in which an instruction is executed: another pc, another count of free values and other answers of the
environment than the instruction before it left. -/
def State.resumed (s : State) (pc : Word) (count : Nat) (inputs : List Boundary) : State :=
  { s with pc := pc, fresh := count, inputs := inputs }

/-- The state after `i` DIVWS, each resumed at its own pc, count and inputs. -/
def divwsTrace (rrh rrl : WPair) (rrs : RegPair) (pcs : Nat → Word) (counts : Nat → Nat)
    (inputs : Nat → List Boundary) (s : State) : Nat → State
  | 0 => s
  | i + 1 =>
    let t := (divwsTrace rrh rrl rrs pcs counts inputs s i).resumed (pcs i) (counts i) (inputs i)
    t.afterDivws rrh rrl (t.divwsResult rrh rrl rrs)

/-- What `i` DIVWS from `s` have made of it in `t`: the dividend has gone through `i` steps with one divisor and one
C. -/
structure DivwsProgress (rrh rrl : WPair) (rrs : RegPair) (s : State) (i : Nat) (t : State) : Prop where
  window : t.window = s.window
  divisor : t.pair rrs = s.pair rrs
  carry : t.flag .c = s.flag .c
  dividend : t.dividend rrh rrl =
    divwsRun Config.divwsStep (s.pair rrs) (s.flag .c) i (s.dividend rrh rrl)

theorem DivwsProgress.resumed {i : Nat} {t : State} (h : DivwsProgress rrh rrl rrs s i t) (pc : Word) (count : Nat)
    (inputs : List Boundary) : DivwsProgress rrh rrl rrs s i (t.resumed pc count inputs) :=
  ⟨h.window, h.divisor, h.carry, h.dividend⟩

theorem DivwsProgress.divwsResult_eq {i : Nat} {t : State} (h : DivwsProgress rrh rrl rrs s i t) :
    t.divwsResult rrh rrl rrs =
      divwsRun Config.divwsStep (s.pair rrs) (s.flag .c) (i + 1) (s.dividend rrh rrl) := by
  rw [divwsRun_succ, ← h.dividend, State.divwsResult, h.divisor, h.carry]
  rfl

theorem DivwsProgress.afterDivws {i : Nat} {t : State} (hready : t.DivwsReady rrh rrl rrs)
    (h : DivwsProgress rrh rrl rrs s i t) :
    DivwsProgress rrh rrl rrs s (i + 1) (t.afterDivws rrh rrl (t.divwsResult rrh rrl rrs)) where
  window := (hready.window_afterDivws _).trans h.window
  divisor := (hready.divisor_afterDivws _).trans h.divisor
  carry := (hready.flag_c_afterDivws _).trans h.carry
  dividend := (hready.dividend_afterDivws _).trans h.divwsResult_eq

theorem divwsTrace_progress (hready : s.DivwsReady rrh rrl rrs) (pcs : Nat → Word) (counts : Nat → Nat)
    (inputs : Nat → List Boundary) (i : Nat) :
    DivwsProgress rrh rrl rrs s i (divwsTrace rrh rrl rrs pcs counts inputs s i) := by
  induction i with
  | zero => exact ⟨rfl, rfl, rfl, rfl⟩
  | succ i ih =>
    have h := ih.resumed (pcs i) (counts i) (inputs i)
    exact h.afterDivws (hready.of_window h.window)

/-! ### The RLCW after the steps -/

/-- The shift left by one bit through a carry, in numbers. -/
theorem toNat_shiftLeft_or_carry (d : Word) (c : Bool) :
    (d <<< 1 ||| (BitVec.ofBool c).zeroExtend 16).toNat = 2 * (d.toNat % 32768) + c.toNat := by
  rw [← extractLsb'_append_ofBool (w := 15)]
  refine (toNat_append_eq_add (d.extractLsb' 0 15) (BitVec.ofBool c)).trans ?_
  rw [BitVec.extractLsb'_toNat, BitVec.toNat_ofBool, Nat.shiftRight_zero,
    Nat.pow_one]

/-- RLCW on the low dividend pair rotates C into it and leaves the high pair and the divisor alone. -/
theorem State.DivwsReady.exec_rlcw (h : s.DivwsReady rrh rrl rrs) : ∃ u, exec (.rlcw (wregAddr rrl)) s = .next u ∧
    u.ww rrh = s.ww rrh ∧ (u.ww rrl).toNat = 2 * ((s.ww rrl).toNat % 32768) + (s.flag .c).toNat ∧
    u.pair rrs = s.pair rrs := by
  obtain ⟨-, -, hrlcw, -, -⟩ := wordUnariesComplete (wregAddr rrl) s _ _
    (State.pairReachable_of_ordinary h.low.1 h.low.2) rfl rfl
  refine ⟨_, hrlcw _ rfl (State.pairSettable_of_ordinary _ h.low.1 h.low.2), ?_, ?_, ?_⟩
  · rw [State.ww, State.pair_setFlags_ordinary _ (State.ordinaryPair_setPair _ h.low h.high),
      State.pair_setPair_apart _ h.low h.high_low.symm, State.ww]
  · rw [State.ww, State.pair_setFlags_ordinary _ (State.ordinaryPair_setPair _ h.low h.low),
      State.pair_setPair_ordinary _ h.low.1 h.low.2, toNat_shiftLeft_or_carry, State.ww]
  · rw [State.pair_setFlags_ordinary _ (State.ordinaryPair_setPair _ h.low h.divisor),
      State.pair_setPair_apart _ h.low h.low_divisor]

end

/-- Settles O47: the registers go through the sixteen steps of the parameter's contract, whose quotient bits the RLCW
moves to their places. -/
theorem divwsCompletes : Obligations.DivwsCompletes := by
  refine ⟨?step, ?division⟩
  case step =>
    rintro rrh rrl rrs s _ _ r hhigh hlow hdivisor hr hwrite rfl hwrite' rfl
    exact exec_divws_next hhigh hlow hdivisor hr hwrite hwrite'
  case division =>
    rintro rrh rrl rrs s _ _ pcs counts inputs hordinary hnodup rfl rfl hlt
    have hready := State.divwsReady_of_list hordinary hnodup
    have progress := fun i =>
      (divwsTrace_progress hready pcs counts inputs i).resumed (pcs i) (counts i) (inputs i)
    have hend := progress 16
    obtain ⟨hremainder, hquotient⟩ := Config.divwsStep_contract (s.ww rrh) (s.ww rrl) (s.pair rrs) (s.flag .c)
      s.divwsHidden _ hlt rfl
    change (divwsRun _ _ _ 16 (s.dividend rrh rrl)).1.toNat = _ at hremainder
    change (divwsRun _ _ _ 16 (s.dividend rrh rrl)).2.1.toNat % 32768 = _ at hquotient
    rw [← hend.dividend] at hremainder hquotient
    obtain ⟨u, hrlcw, hhigh, hlow, hdivisor⟩ := (hready.of_window hend.window).exec_rlcw
    refine ⟨divwsTrace rrh rrl rrs pcs counts inputs s, u, rfl,
      fun i _ => (hready.of_window (progress i).window).exec_eq, hrlcw, ?_, ?_, hdivisor.trans hend.divisor⟩
    · rw [hhigh]
      exact hremainder
    · rw [hlow, hend.carry]
      exact congrArg (2 * · + (s.flag .c).toNat) hquotient

end Sys2Proof.Machine
end

section
/-! SUPPORT. The bit instructions, where each register access goes through (spec/45_boolean.md R350 to R358). -/

namespace Sys2Proof.Machine

/-! ### Instructions that write one bit (45_boolean.md R350 to R353, R355 to R358) -/

/-- The only byte with bit `i` replaced is the one of `setbit` (45_boolean.md R350). -/
theorem eq_setBit {v r : Byte} {i : Nat} {x : Bool}
    (h : ∀ j < 8, r.getLsbD j = if j = i then x else v.getLsbD j) : r = setBit v i x :=
  BitVec.eq_of_getLsbD_eq fun j hj => by rw [h j hj, getLsbD_setBit v x hj]

theorem setBit_true (v : Byte) (i : Nat) : setBit v i true = v ||| 1#8 <<< i :=
  BitVec.eq_of_getLsbD_eq fun j hj => by
    rw [getLsbD_setBit v true hj, BitVec.getLsbD_or, ← BitVec.twoPow_eq, BitVec.getLsbD_twoPow]
    by_cases h : j = i
    · subst h
      simp [hj]
    · simp [h, Ne.symm h]

section
variable {rd rs : WReg} {s : State} (hd : s.wOk rd = true)
include hd

theorem twoBit_next (hs : s.wOk rs = true) (g : Bool → Bool → Bool) (src : BitSource) (bd bs : BitVec 3) :
    Res.outcome (twoBit g src bd rd bs rs s) = .next (s.setReg (wregAddr rd)
      (setBit (s.w rd) bd.toNat (g ((s.w rd).getLsbD bd.toNat) (sourceBit src bs (s.w rs))))) := by
  rw [twoBit, readW_eq hs, Res.bind_ok, readW_eq hd, Res.bind_ok, writeW_eq _ hd, Res.outcome_ok]

theorem oneBit_next (g : Bool → Bool) (b : BitVec 3) : Res.outcome (oneBit g b rd s) =
    .next (s.setReg (wregAddr rd) (setBit (s.w rd) b.toNat (g ((s.w rd).getLsbD b.toNat)))) := by
  rw [oneBit, readW_eq hd, Res.bind_ok, writeW_eq _ hd, Res.outcome_ok]

end

/-- Settles O48: the stated byte is the one of `setbit`, and each instruction writes `setbit` of its own new bit. -/
theorem bitWritesComplete : Obligations.BitWritesComplete := by
  rintro bd bs rd rs s _ _ r hd rfl rfl hr
  obtain rfl : r = setBit (s.w rd) bd.toNat := funext fun z => eq_setBit (hr z)
  refine ⟨fun hs => ?twoBits, ?bset, ?bres, ?bcpl⟩
  case twoBits =>
    exact ⟨twoBit_next hd hs _ .plain bd bs, twoBit_next hd hs _ .complemented bd bs,
      twoBit_next hd hs _ .plain bd bs, twoBit_next hd hs _ .complemented bd bs,
      twoBit_next hd hs _ .plain bd bs, twoBit_next hd hs _ .complemented bd bs,
      twoBit_next hd hs _ .plain bd bs, twoBit_next hd hs _ .complemented bd bs⟩
  case bset => exact oneBit_next hd _ bd
  case bres => exact oneBit_next hd _ bd
  case bcpl => exact oneBit_next hd _ bd

/-! ### BTSET (45_boolean.md R354) -/

theorem exec_btset (f : BtsetForm) (s : State) : exec (.btset f) s = Res.outcome (bitTestSet f s) := rfl

/-- The sign flag of BTSET looks at bit 7 whatever bit is tested. -/
theorem btsetFlags_eq (b : BitVec 3) (v : Byte) : btsetFlags b v =
    { z := some (!v.getLsbD b.toNat), s := some (b == 7 && v.getLsbD 7), v := some false } := by
  have hsign : (b == 7 && v.getLsbD b.toNat) = (b == 7 && v.getLsbD 7) := by
    by_cases h : b = 7
    · subst h
      rfl
    · rw [beq_false_of_ne h, Bool.false_and, Bool.false_and]
  rw [btsetFlags, hsign]

/-- Settles O49: both forms read the byte, set the bit by an OR and take the flags from the byte before it. -/
theorem btsetCompletes : Obligations.BtsetCompletes := by
  refine fun b s => ⟨?register, ?memory⟩
  case register =>
    rintro rd _ hd rfl
    rw [exec_btset, bitTestSet, readW_eq hd, Res.bind_ok, writeW_eq _ hd, Res.bind_ok, Res.outcome_ok, setBit_true,
      btsetFlags_eq]
  case memory =>
    rintro rr _ hpair rfl
    rw [exec_btset, bitTestSet, readWW_eq hpair, Res.bind_ok, Res.outcome_ok, setBit_true, btsetFlags_eq]

end Sys2Proof.Machine
end

section
/-! SUPPORT. The jumps that test a bit or compare a register with memory (spec/45_boolean.md R359, R360,
spec/46_control.md R370, R382, R383). -/

namespace Sys2Proof.Machine

/-- The relative target as the sum of the pc and the signed offset (46_control.md R370). -/
theorem State.relTarget_eq_ofInt (s : State) (n : Byte) :
    s.relTarget n = BitVec.ofInt 16 (s.pc.toNat + n.toInt) := by
  rw [State.relTarget, BitVec.ofInt_add, BitVec.ofInt_natCast, BitVec.ofNat_toNat, BitVec.setWidth_eq]
  rfl

theorem bitJump_next {rd : WReg} {s : State} (h : s.wOk rd = true) (want : Bool) (b : BitVec 3) (n : Byte) :
    Res.outcome (bitJump want b rd n s) =
      .next (if (s.w rd).getLsbD b.toNat = want then s.jump (s.relTarget n) else s) := by
  rw [bitJump, readW_eq h, Res.bind_ok, Res.outcome_ok]
  rfl

section
variable {rd : WReg} {rrs : WPair} {s : State} {whenEqual : Bool} (hd : s.wOk rd = true) (hpair : s.wwOk rrs = true)
include hd hpair

theorem compareJump_taken (n : Byte) (h : (s.w rd == s.srcByte (s.ww rrs)) = whenEqual) :
    Res.outcome (compareJump whenEqual rd rrs n s) = .next (s.jump (s.relTarget n)) := by
  rw [compareJump, readWW_eq hpair, Res.bind_ok, readW_eq hd, Res.bind_ok, if_pos h, Res.outcome_ok]

theorem compareJump_not_taken (n : Byte) (h : (s.w rd == s.srcByte (s.ww rrs)) ≠ whenEqual)
    (hbump : s.bumpOk rrs 1 = true) :
    Res.outcome (compareJump whenEqual rd rrs n s) = .next (s.bumped rrs 1) := by
  obtain ⟨-, hwrite⟩ := Bool.and_eq_true_iff.mp hbump
  rw [compareJump, readWW_eq hpair, Res.bind_ok, readW_eq hd, Res.bind_ok, if_neg h, writeWW_eq hwrite,
    Res.outcome_ok, State.bumped]

end

/-- Settles O56: BTJF and CPJFI jump where the test of BTJT and CPJTI fails, to the same target. -/
theorem testingJumpsComplete : Obligations.TestingJumpsComplete := by
  intro rd n s t ht
  obtain rfl : t = s.jump (s.relTarget n) := by rw [ht, s.relTarget_eq_ofInt, State.jump]
  refine ⟨fun b hd => ⟨?btjf, ?btjt⟩, fun rrs hd hpair => ⟨fun heq => ?equal, fun hne => ?different⟩⟩
  case btjf =>
    refine (bitJump_next hd false b n).trans ?_
    cases (s.w rd).getLsbD b.toNat <;> rfl
  case btjt => exact bitJump_next hd true b n
  case equal =>
    have htest := beq_iff_eq.mpr heq
    exact ⟨compareJump_taken hd hpair n htest, compareJump_not_taken hd hpair n (by simp [htest])⟩
  case different =>
    have htest := beq_eq_false_iff_ne.mpr hne
    exact ⟨compareJump_taken hd hpair n htest, compareJump_not_taken hd hpair n (by simp [htest])⟩

end Sys2Proof.Machine
end

section
/-! SUPPORT. The program control instructions, where each part goes through: the jumps on a condition, the jumps, calls
and returns, and the decrementing jumps (spec/46_control.md R371 to R381). -/

namespace Sys2Proof.Machine

/-! ### Jumps on a condition (46_control.md R373, R374) -/

theorem exec_ofJp (cc : BitVec 4) (nn : Word) (s : State) : exec (Instr.ofJp cc nn) s = .next (jumpIf cc nn s) := by
  unfold Instr.ofJp
  split
  case h_16 =>
    obtain rfl : cc = 0xF#4 := by revert cc; decide
    rfl
  all_goals rfl

theorem exec_ofJr (cc : BitVec 4) (n : Byte) (s : State) : exec (Instr.ofJr cc n) s = .next (jumpRelIf cc n s) := by
  unfold Instr.ofJr
  split
  case h_16 =>
    obtain rfl : cc = 0xF#4 := by revert cc; decide
    rfl
  all_goals rfl

theorem encode_ofJp (cc : BitVec 4) (nn : Word) : encode (Instr.ofJp cc nn) = [nib cc 0xD, nn.hi, nn.lo] := by
  obtain ⟨hbytes, -⟩ := ReadsBack.jp cc nn.hi nn.lo [] _ _ rfl
  simpa using hbytes

theorem encode_ofJr (cc : BitVec 4) (n : Byte) : encode (Instr.ofJr cc n) = [nib cc 0xB, n] := by
  obtain ⟨hbytes, -⟩ := ReadsBack.jr cc n [] _ _ rfl
  simpa using hbytes

/-- Settles O51: the condition code of the first byte is the one that the instruction tests. -/
theorem conditionalJumpsComplete : Obligations.ConditionalJumpsComplete := by
  refine fun cc nn n s => ⟨exec_ofJp cc nn s, ?_, encode_ofJp cc nn, encode_ofJr cc n⟩
  rw [exec_ofJr, jumpRelIf, s.relTarget_eq_ofInt]
  rfl

/-! ### Jumps and calls (46_control.md R371, R375 to R377) -/

@[simp] theorem State.pushed16_csr (s : State) (k : Stack) (w : Word) : (s.pushed16 k w).csr = s.csr := by
  unfold State.pushed16 State.pushedHigh
  split <;> simp

theorem jumpPair_next {rr : RegPair} {s : State} (h : s.pairReachable rr = true) :
    Res.outcome (jumpPair rr s) = .next (s.jump (s.pair rr)) := by
  rw [jumpPair, readPair_eq h, Res.bind_ok, Res.outcome_ok]

theorem jumpFar_next {f : FarForm} {s : State} (h : s.farReachable f = true) :
    Res.outcome (jumpFar f s) = .next { s.jump (s.far f).2 with csr := (s.far f).1 } := by
  rw [jumpFar, farTarget_eq h, Res.bind_ok, Res.outcome_ok]

theorem callNear_eq {f : CallForm} {s : State} {target : Word} (ht : callTarget f s = .ok target)
    (hpush : s.push16Ok .system s.pc = true) :
    callNear f s = .ok ((s.pushed16 .system s.pc).jump target) := by
  rw [callNear, ht, Res.bind_ok, push16_eq hpush, Res.bind_ok]

theorem callFar_eq {f : FarForm} {s : State} {g : BitVec 6 × Word} (hg : farTarget f s = .ok g)
    (hpush : s.push16Ok .system s.pc = true) (hpush' : (s.pushed16 .system s.pc).push8Ok .system = true) :
    callFar f s =
      .ok { ((s.pushed16 .system s.pc).pushed8 .system (s.csr.zeroExtend 8)).jump g.2 with csr := g.1 } := by
  rw [callFar, hg, Res.bind_ok, push16_eq hpush, Res.bind_ok, push8_eq _ hpush', Res.bind_ok, State.pushed16_csr]

/-- Settles O52: the target is read in the state before the pushes, and the pushes go through. -/
theorem jumpsAndCallsComplete : Obligations.JumpsAndCallsComplete := by
  refine fun s t => ⟨fun rr hread => jumpPair_next hread, fun f hread => jumpFar_next hread, ?calls⟩
  rintro hpush rfl
  refine ⟨fun nn => ?direct, fun rr hread => ?indirect, fun f hread hpush' => ?far⟩
  case direct => exact congrArg Res.outcome (callNear_eq (f := .direct nn) rfl hpush)
  case indirect => exact congrArg Res.outcome (callNear_eq (f := .indirect rr) (readPair_eq hread) hpush)
  case far => exact congrArg Res.outcome (callFar_eq (farTarget_eq hread) hpush hpush')

/-! ### Returns (46_control.md R372, R378, R379) -/

@[simp] theorem State.dropped_encsr (s : State) (k : Stack) (n : Byte) : (s.dropped k n).encsr = s.encsr := by
  unfold State.dropped
  split <;> simp

@[simp] theorem State.dropped_cicr (s : State) (k : Stack) (n : Byte) : (s.dropped k n).cicr = s.cicr := by
  unfold State.dropped
  split <;> simp

theorem setIen_true_eq (s : State) : s.setIen true = { s with cicr := s.cicr ||| 0x10 } := by
  have hset : ∀ c : Byte, (c &&& 0xEF) ||| 0x10 = c ||| 0x10 := by decide
  rw [State.setIen, if_pos rfl, hset]

/-- The state after CSR has been popped, where the interrupt frame holds it (10_state.md R40). -/
theorem popCsr_eq {s : State} (h : s.encsr = true → s.pop8Ok .system = true) : popCsr s =
    .ok (if s.encsr then { (s.dropped .system 1) with csr := (s.top8 .system).extractLsb' 0 6 } else s) := by
  unfold popCsr
  split
  case isTrue hlong => rw [pop8_eq (h hlong), Res.bind_ok]
  case isFalse => rfl

/-- Settles O53: each pop goes through in the state that the pops before it left. -/
theorem returnsComplete : Obligations.ReturnsComplete := by
  refine fun s => ⟨fun hpop => ?ret, ?rets, ?iret⟩
  case ret =>
    change Res.outcome (returnNear s) = _
    rw [returnNear, pop16_eq hpop, Res.bind_ok, Res.outcome_ok, State.jump]
  case rets =>
    rintro s1 hpop hs1 hpop'
    have hrets : returnFar s = .ok ((s1.dropped .system 2).jump (s1.top16 .system)) := by
      simp only [returnFar, pop8_eq hpop, Res.bind_ok, ← hs1, pop16_eq hpop']
    exact congrArg Res.outcome hrets
  case iret =>
    rintro s1 s2 hpop hs1 hpopCsr hs2 hpop'
    have hencsr : s.encsr = s1.encsr := by simp [hs1]
    rw [hencsr] at hpopCsr hs2
    have hiret : returnFromInterrupt s = .ok (((s2.dropped .system 2).jump (s2.top16 .system)).setIen true) := by
      simp only [returnFromInterrupt, pop8_eq hpop, Res.bind_ok, ← hs1, popCsr_eq hpopCsr, ← hs2, pop16_eq hpop',
        State.jump]
    refine (congrArg Res.outcome hiret).trans ?_
    rw [setIen_true_eq, Res.outcome_ok, State.jump, State.dropped_cicr]

/-! ### Decrementing jumps (46_control.md R380, R381, 70_reset_and_hazards.md R500) -/

/-- The branch of a decrementing jump: free on a counter in group E or F, otherwise taken where the counter is not
0. -/
def State.decBranch {w : Nat} (s : State) (a : Byte) (d : BitVec w) (n : Byte) (t : State) : State :=
  if (if s.inGroupEF a then Config.freeBranch s.fresh else d != 0) then t.jump (s.relTarget n) else t

theorem State.decBranch_below_groupE {w : Nat} {s : State} {a : Byte} (d : BitVec w) (n : Byte) (t : State)
    (h : (s.addr a).toNat < 224) : s.decBranch a d n t = if d = 0 then t else t.jump (s.relTarget n) := by
  rw [State.decBranch, State.inGroupEF, decide_eq_false (by omega), if_neg Bool.false_ne_true]
  by_cases hd : d = 0 <;> simp [hd]

theorem State.decBranch_in_groups_EF {w : Nat} {s : State} {a : Byte} (d : BitVec w) (n : Byte) (t : State)
    (h : 224 ≤ (s.addr a).toNat) :
    s.decBranch a d n t = if Config.freeBranch s.fresh then t.jump (s.relTarget n) else t := by
  rw [State.decBranch, State.inGroupEF, decide_eq_true h, if_pos rfl]

theorem decJump_next {r : WReg} {s : State} (n : Byte) (h : s.wOk r = true) : Res.outcome (decJump r n s) =
    .next (s.decBranch (wregAddr r) (s.w r - 1) n (s.setReg (wregAddr r) (s.w r - 1))) := by
  rw [decJump, readW_eq h, Res.bind_ok, writeW_eq _ h, Res.bind_ok, Res.outcome_ok, State.decBranch, State.relTarget,
    State.relTarget, State.setReg_pc, State.setReg_fresh]

theorem decJumpWord_next {rr : RegPair} {s : State} (n : Byte) (hread : s.pairReachable rr = true)
    (hwrite : s.pairSettable rr (s.pair rr - 1) = true) : Res.outcome (decJumpWord rr n s) =
    .next (s.decBranch rr (s.pair rr - 1) n (s.setPair rr (s.pair rr - 1))) := by
  have hpc : (s.setPair rr (s.pair rr - 1)).pc = s.pc := by simp [State.setPair]
  have hfresh : (s.setPair rr (s.pair rr - 1)).fresh = s.fresh := by simp [State.setPair]
  rw [decJumpWord, readPair_eq hread, Res.bind_ok, writePair_eq hwrite, Res.bind_ok, Res.outcome_ok, State.decBranch,
    State.relTarget, State.relTarget, hpc, hfresh]

/-- Settles O55: the counter is written in any case, and its place before the write decides about the branch. -/
theorem decrementJumpsComplete : Obligations.DecrementJumpsComplete := by
  intro n s j hj
  obtain rfl : j = fun t => t.jump (s.relTarget n) := funext fun t => by rw [hj, s.relTarget_eq_ofInt, State.jump]
  refine ⟨?byte, ?word⟩
  case byte =>
    rintro r _ hread rfl
    have hnext : exec (.djnz r n) s = _ := decJump_next n hread
    exact ⟨fun h => by rw [hnext, State.decBranch_below_groupE _ n _ h],
      fun h => by rw [hnext, State.decBranch_in_groups_EF _ n _ h]⟩
  case word =>
    rintro rr _ hread rfl hwrite
    have hnext : exec (.dwjnz rr n) s = _ := decJumpWord_next n hread hwrite
    exact ⟨fun h => by rw [hnext, State.decBranch_below_groupE _ n _ h],
      fun h => by rw [hnext, State.decBranch_in_groups_EF _ n _ h]⟩

end Sys2Proof.Machine
end

section
/-! SUPPORT. Several pushes on one frame of a stack and the pops that take them back: RET and RETS after CALL and CALLS,
and IRET after the interrupt entry (spec/46_control.md R372, R376 to R379, R385, spec/60_exceptions.md R460, R461). -/

namespace Sys2Proof.Machine

/-! ### What pushes and pops leave alone -/

@[simp] theorem State.pushed8_dataMap (s : State) (k : Stack) (v : Byte) : (s.pushed8 k v).dataMap = s.dataMap := by
  unfold State.pushed8
  split <;> simp

@[simp] theorem State.pushed8_memRegions (s : State) (k : Stack) (v : Byte) :
    (s.pushed8 k v).memRegions = s.memRegions := by
  unfold State.pushed8
  split <;> simp

@[simp] theorem State.pushed16_dataMap (s : State) (k : Stack) (w : Word) :
    (s.pushed16 k w).dataMap = s.dataMap := by
  unfold State.pushed16 State.pushedHigh
  split <;> simp

@[simp] theorem State.pushed16_memRegions (s : State) (k : Stack) (w : Word) :
    (s.pushed16 k w).memRegions = s.memRegions := by
  unfold State.pushed16 State.pushedHigh
  split <;> simp

@[simp] theorem State.pushed16_encsr (s : State) (k : Stack) (w : Word) : (s.pushed16 k w).encsr = s.encsr := by
  unfold State.pushed16 State.pushedHigh
  split <;> simp

@[simp] theorem State.dropped_flagr (s : State) (k : Stack) (n : Byte) : (s.dropped k n).flagr = s.flagr := by
  unfold State.dropped
  split <;> simp

@[simp] theorem State.dropped_csr (s : State) (k : Stack) (n : Byte) : (s.dropped k n).csr = s.csr := by
  unfold State.dropped
  split <;> simp

@[simp] theorem State.inRegfile_dropped (s : State) (k j : Stack) (n : Byte) :
    (s.dropped k n).inRegfile j = s.inRegfile j := by
  unfold State.dropped
  split <;> simp

@[simp] theorem State.window_dropped (s : State) (k : Stack) (n : Byte) : (s.dropped k n).window = s.window := by
  unfold State.dropped
  split <;> simp

/-! ### The places of a frame -/

section
variable {s : State} {k : Stack} {n : Nat}

theorem State.mem_frame {j : Nat} (hpos : 0 < j) (hle : j ≤ n) :
    s.translate .data (s.sp k - BitVec.ofNat 16 j) ∈ s.frame k n := by
  induction n with
  | zero => omega
  | succ n ih =>
    rcases Nat.le_succ_iff.mp hle with h | rfl
    · exact List.mem_cons_of_mem _ (ih h)
    · exact List.mem_cons_self

theorem State.mem_frameRegs {j : Nat} (hpos : 0 < j) (hle : j ≤ n) :
    s.spLow k - BitVec.ofNat 8 j ∈ s.frameRegs k n := by
  induction n with
  | zero => omega
  | succ n ih =>
    rcases Nat.le_succ_iff.mp hle with h | rfl
    · exact List.mem_cons_of_mem _ (ih h)
    · exact List.mem_cons_self

theorem State.frameOk_of_succ (h : s.frameOk k (n + 1)) : s.frameOk k n := by
  obtain ⟨hmem, hregs⟩ := h
  refine ⟨fun hr => ?_, fun hr a ha => hregs hr a (List.mem_cons_of_mem _ ha)⟩
  obtain ⟨hdistinct, hram⟩ := hmem hr
  exact ⟨(List.nodup_cons.mp hdistinct).2, fun p hp => hram p (List.mem_cons_of_mem _ hp)⟩

theorem State.frameOk_of_le {m : Nat} (hle : m ≤ n) (h : s.frameOk k n) : s.frameOk k m := by
  induction hle with
  | refl => exact h
  | step _ ih => exact ih (State.frameOk_of_succ h)

theorem State.frame_apart {i j : Nat} (h : (s.frame k n).Nodup) (hpos : 0 < i) (hlt : i < j) (hle : j ≤ n) :
    s.translate .data (s.sp k - BitVec.ofNat 16 i) ≠ s.translate .data (s.sp k - BitVec.ofNat 16 j) := by
  induction n with
  | zero => omega
  | succ n ih =>
    obtain ⟨hnew, hrest⟩ := List.nodup_cons.mp h
    rcases Nat.le_succ_iff.mp hle with hj | rfl
    · exact ih hrest hj
    · exact fun e => hnew (e ▸ State.mem_frame hpos (by omega))

end

/-- Resolving an address keeps its lowest three bits: a window is a group of 8 or 16 registers (10_state.md R24). -/
theorem State.addr_toNat_mod_eight (s : State) (a : Byte) : (s.addr a).toNat % 8 = a.toNat % 8 := by
  unfold State.addr
  split
  · have hlow := toNat_loNib a
    rw [State.working_toNat]
    split_ifs <;> omega
  · rfl

/-- Registers of one frame of at most eight bytes are distinct, also where the frame meets group D. -/
theorem State.addr_sub_ne (s : State) (a : Byte) {i j : Nat} (hlt : i < j) (hle : j < i + 8) :
    s.addr (a - BitVec.ofNat 8 i) ≠ s.addr (a - BitVec.ofNat 8 j) := by
  intro e
  have h := s.addr_toNat_mod_eight (a - BitVec.ofNat 8 i)
  rw [e, s.addr_toNat_mod_eight, BitVec.toNat_sub, BitVec.toNat_sub, BitVec.toNat_ofNat, BitVec.toNat_ofNat] at h
  omega

/-! ### The pointer after several pushes and pops -/

theorem State.dropped_one_dropped_one (s : State) (k : Stack) : (s.dropped k 1).dropped k 1 = s.dropped k 2 := by
  have hword : ∀ w : Word, w + BitVec.zeroExtend 16 (1 : Byte) + BitVec.zeroExtend 16 (1 : Byte) =
      w + BitVec.zeroExtend 16 (2 : Byte) := fun w => by bv_omega
  have hbyte : ∀ c : Byte, c + 1 + 1 = c + 2 := fun c => by bv_omega
  cases hr : s.inRegfile k
  · rw [State.dropped_in_memory (s := s.dropped k 1) _ (by simpa using hr), State.dropped_in_memory _ hr,
      State.dropped_in_memory _ hr, State.sp_setSp, State.setSp_setSp, hword]
  · rw [State.dropped_in_registers (s := s.dropped k 1) _ (by simpa using hr), State.dropped_in_registers _ hr,
      State.dropped_in_registers _ hr, State.spLow_setSpLow, State.setSpLow, State.sp_setSpLow, Word.hi_word,
      State.setSpLow, State.setSp_setSp, hbyte, State.setSpLow]

section
variable {b s : State} {k : Stack} {c : Byte} (hr : s.inRegfile k = b.inRegfile k)
include hr

theorem State.loweredSp_of_lowered (hc : c.toNat < 255) (hsp : s.sp k = b.loweredSp k c) :
    s.loweredSp k 1 = b.loweredSp k (c + 1) := by
  cases hk : b.inRegfile k
  · simp only [State.loweredSp, hr, hk, Bool.false_eq_true, if_false] at hsp ⊢
    rw [hsp]
    bv_omega
  · simp only [State.loweredSp, hr, hk, if_true] at hsp ⊢
    rw [State.spLow, hsp, Word.hi_word, Word.lo_word, sub_sub]

theorem State.sp_dropped_of_lowered (hc : c.toNat < 255) (hsp : s.sp k = b.loweredSp k (c + 1)) :
    (s.dropped k 1).sp k = b.loweredSp k c := by
  cases hk : b.inRegfile k
  · rw [State.dropped_in_memory _ (hr.trans hk), State.sp_setSp, hsp]
    simp only [State.loweredSp, hk, Bool.false_eq_true, if_false]
    bv_omega
  · rw [State.dropped_in_registers _ (hr.trans hk), State.sp_setSpLow, State.spLow, hsp]
    simp only [State.loweredSp, hk, if_true, Word.hi_word, Word.lo_word]
    rw [← sub_sub, sub_add_cancel]

end

theorem State.translate_data_congr {s t : State} (h : t.dataMap = s.dataMap) (a : Word) :
    t.translate .data a = s.translate .data a := by
  rw [State.translate, State.translate, h]

/-! ### The bytes of a stack -/

section
variable {s : State} {k : Stack}

theorem State.stackByte_in_memory (i : Nat) (hr : s.inRegfile k = false) :
    s.stackByte k i = s.memByte .source .data (s.sp k + BitVec.ofNat 16 i) := if_neg (by simp [hr])

theorem State.stackByte_in_registers (i : Nat) (hr : s.inRegfile k = true) :
    s.stackByte k i = s.reg (s.spLow k + BitVec.ofNat 8 i) := if_pos hr

theorem State.top8_eq_stackByte : s.top8 k = s.stackByte k 0 := by simp [State.top8, State.stackByte]

theorem State.top16_eq_stackBytes : s.top16 k = word (s.stackByte k 0) (s.stackByte k 1) := by
  cases hr : s.inRegfile k <;> simp [State.top16, State.stackByte, State.memWord, hr]

/-- A byte push moves the bytes above it one place up and keeps those in other places than its own. -/
theorem State.stackByte_pushed8_succ (v : Byte) (i : Nat) (h : s.frameOk k 1)
    (hmem : s.inRegfile k = false →
      s.translate .data (s.sp k + BitVec.ofNat 16 i) ≠ s.translate .data (s.sp k - 1))
    (hreg : s.inRegfile k = true → s.ordinary (s.spLow k + BitVec.ofNat 8 i) = true ∧
      s.addr (s.spLow k + BitVec.ofNat 8 i) ≠ s.addr (s.spLow k - 1)) :
    (s.pushed8 k v).stackByte k (i + 1) = s.stackByte k i := by
  cases hr : s.inRegfile k
  · have hplace : s.sp k - 1 + BitVec.ofNat 16 (i + 1) = s.sp k + BitVec.ofNat 16 i := by bv_omega
    rw [State.stackByte_in_memory _ (by simpa using hr), State.stackByte_in_memory _ hr,
      State.pushed8_in_memory v hr, State.sp_setMemByte, State.sp_setSp, hplace,
      State.memByte_setMemByte_other _ _ _ (by simpa using hmem hr)]
    cases k <;> rfl
  · have hplace : s.spLow k - 1 + BitVec.ofNat 8 (i + 1) = s.spLow k + BitVec.ofNat 8 i := by bv_omega
    obtain ⟨hordinary, hapart⟩ := hreg hr
    rw [State.stackByte_in_registers _ (by simpa using hr), State.spLow_pushed8 v h hr, hplace,
      State.stackByte_in_registers _ hr, State.pushed8_in_registers v hr,
      State.reg_setReg_ordinary _ (by simpa using State.ordinary_of_frameOk_one h hr), State.addr_setSpLow,
      State.addr_setSpLow, if_neg hapart]
    exact State.reg_setSp_ordinary k _ hordinary

theorem State.stackByte_dropped_one (i : Nat)
    (hreg : s.inRegfile k = true → s.ordinary (s.spLow k + BitVec.ofNat 8 (i + 1)) = true) :
    (s.dropped k 1).stackByte k i = s.stackByte k (i + 1) := by
  cases hr : s.inRegfile k
  · have hplace : s.sp k + BitVec.zeroExtend 16 (1 : Byte) + BitVec.ofNat 16 i = s.sp k + BitVec.ofNat 16 (i + 1) := by
      bv_omega
    rw [State.dropped_in_memory _ hr, State.stackByte_in_memory _ (by simpa using hr), State.stackByte_in_memory _ hr,
      State.sp_setSp, hplace]
    cases k <;> rfl
  · have hplace : s.spLow k + 1 + BitVec.ofNat 8 i = s.spLow k + BitVec.ofNat 8 (i + 1) := by bv_omega
    rw [State.dropped_in_registers _ hr, State.stackByte_in_registers _ (by simpa using hr),
      State.stackByte_in_registers _ hr, State.spLow_setSpLow, hplace]
    exact State.reg_setSp_ordinary k _ (hreg hr)

/-- No ordinary register is FLAGR or CICR, and no byte of the stack depends on the pc, CSR or the run state. -/
theorem State.stackByte_control (f c : Byte) (pc : Word) (csr : BitVec 6) (r : RunState) (i : Nat)
    (hreg : s.inRegfile k = true → s.ordinary (s.spLow k + BitVec.ofNat 8 i) = true) :
    State.stackByte { s with flagr := f, cicr := c, pc := pc, csr := csr, runState := r } k i = s.stackByte k i := by
  have hcell : ∀ p, regRole p = .plain ∨ regRole p = .paged →
      State.cell { s with flagr := f, cicr := c, pc := pc, csr := csr, runState := r } p = s.cell p := by
    rintro p (hrole | hrole) <;> simp [State.cell, hrole, State.pageKey]
  cases hr : s.inRegfile k
  · rw [State.stackByte_in_memory _ hr, State.stackByte_in_memory _ (by cases k <;> exact hr)]
    cases k <;> rfl
  · have hordinary := hreg hr
    simp only [State.ordinary, Bool.and_eq_true, Bool.or_eq_true, decide_eq_true_eq] at hordinary
    rw [State.stackByte_in_registers _ hr, State.stackByte_in_registers _ (by cases k <;> exact hr)]
    cases k <;> exact hcell _ hordinary.2

end

/-! ### Frames in use -/

/-- In `s` the bytes `l`, the last pushed first, are on top of the frame of at most `n` bytes that begins below the
pointer of the stack in `b`. -/
structure OnFrame (b : State) (k : Stack) (n : Nat) (s : State) (l : List Byte) : Prop where
  usable : b.frameOk k n
  size : n ≤ 8
  length : l.length ≤ n
  inRegfile : s.inRegfile k = b.inRegfile k
  window : b.inRegfile k = true → s.window = b.window
  pointer : s.sp k = b.loweredSp k (BitVec.ofNat 8 l.length)
  bytes : ∀ i (h : i < l.length), s.stackByte k i = l[i]

namespace OnFrame

variable {b s : State} {k : Stack} {n : Nat} {l : List Byte}

theorem nil (h : b.frameOk k n) (hn : n ≤ 8) : OnFrame b k n b [] where
  usable := h
  size := hn
  length := Nat.zero_le n
  inRegfile := rfl
  window := fun _ => rfl
  pointer := by
    cases hr : b.inRegfile k
    · simp [State.loweredSp, hr]
    · simp [State.loweredSp, hr, State.spLow]
  bytes := nofun

/-- Where the frame is empty again, the pointer is where it was. -/
theorem sp_eq (h : OnFrame b k n s []) : s.sp k = b.sp k :=
  h.pointer.trans (nil h.usable h.size).pointer.symm

/-! ### Where the bytes stand -/

theorem sp_in_memory (h : OnFrame b k n s l) (hr : b.inRegfile k = false) :
    s.sp k = b.sp k - BitVec.ofNat 16 l.length := by
  have hlen : l.length ≤ 8 := h.length.trans h.size
  rw [h.pointer, State.loweredSp, if_neg (by simp [hr])]
  bv_omega

theorem spLow_in_registers (h : OnFrame b k n s l) (hr : b.inRegfile k = true) :
    s.spLow k = b.spLow k - BitVec.ofNat 8 l.length := by
  rw [State.spLow, h.pointer, State.loweredSp, if_pos hr, Word.lo_word]

theorem place_in_memory (h : OnFrame b k n s l) (hr : b.inRegfile k = false) {i : Nat} (hi : i < l.length) :
    s.sp k + BitVec.ofNat 16 i = b.sp k - BitVec.ofNat 16 (l.length - i) := by
  have hlen : l.length ≤ 8 := h.length.trans h.size
  rw [h.sp_in_memory hr]
  bv_omega

theorem place_in_registers (h : OnFrame b k n s l) (hr : b.inRegfile k = true) {i : Nat} (hi : i < l.length) :
    s.spLow k + BitVec.ofNat 8 i = b.spLow k - BitVec.ofNat 8 (l.length - i) := by
  have hlen : l.length ≤ 8 := h.length.trans h.size
  rw [h.spLow_in_registers hr]
  bv_omega

/-- With the stack in the register file the bytes stand in ordinary registers. -/
theorem ordinary (h : OnFrame b k n s l) {i : Nat} (hi : i < l.length) (hr : s.inRegfile k = true) :
    s.ordinary (s.spLow k + BitVec.ofNat 8 i) = true := by
  have hrb : b.inRegfile k = true := h.inRegfile.symm.trans hr
  obtain ⟨-, hregs⟩ := h.usable
  have hlen := h.length
  rw [h.place_in_registers hrb hi, State.ordinary_eq_of_window (h.window hrb)]
  exact hregs hrb _ (State.mem_frameRegs (by omega) (by omega))

/-! ### What keeps the frame -/

theorem control (h : OnFrame b k n s l) (f c : Byte) (pc : Word) (csr : BitVec 6) (r : RunState) :
    OnFrame b k n { s with flagr := f, cicr := c, pc := pc, csr := csr, runState := r } l :=
  { h with
    inRegfile := by cases k <;> exact h.inRegfile
    pointer := by cases k <;> exact h.pointer
    bytes := fun i hi => (State.stackByte_control f c pc csr r i (h.ordinary hi)).trans (h.bytes i hi) }

/-! ### Pushes -/

theorem next_in_memory (h : OnFrame b k n s l) (hr : b.inRegfile k = false) :
    s.sp k - 1 = b.sp k - BitVec.ofNat 16 (l.length + 1) := by
  rw [h.sp_in_memory hr]
  bv_omega

theorem next_in_registers (h : OnFrame b k n s l) (hr : b.inRegfile k = true) :
    s.spLow k - 1 = b.spLow k - BitVec.ofNat 8 (l.length + 1) := by
  rw [h.spLow_in_registers hr]
  bv_omega

section
variable (h : OnFrame b k n s l) (hroom : l.length < n) (hmap : s.dataMap = b.dataMap)
  (hregions : s.memRegions = b.memRegions)
include h hroom hmap hregions

/-- The next place of the frame keeps what is pushed. -/
theorem next_usable : s.frameOk k 1 := by
  obtain ⟨hmem, hregs⟩ := h.usable
  refine ⟨fun hr => ⟨by simp [State.frame], ?memory⟩, fun hr => ?registers⟩
  case memory =>
    have hrb : b.inRegfile k = false := h.inRegfile.symm.trans hr
    obtain ⟨-, hram⟩ := hmem hrb
    simp only [State.frame, List.mem_singleton, forall_eq, hregions]
    rw [State.translate_data_congr hmap]
    change memKind b.memRegions .data (b.translate .data (s.sp k - 1)) = .ram
    rw [h.next_in_memory hrb]
    exact hram _ (State.mem_frame (by omega) hroom)
  case registers =>
    have hrb : b.inRegfile k = true := h.inRegfile.symm.trans hr
    simp only [State.frameRegs, List.mem_singleton, forall_eq]
    rw [State.ordinary_eq_of_window (h.window hrb)]
    change b.ordinary (s.spLow k - 1) = true
    rw [h.next_in_registers hrb]
    exact hregs hrb _ (State.mem_frameRegs (by omega) hroom)

theorem pushed8 (v : Byte) : OnFrame b k n (s.pushed8 k v) (v :: l) := by
  have hnext := h.next_usable hroom hmap hregions
  have hsize := h.size
  refine ⟨h.usable, h.size, hroom, by simp [h.inRegfile], fun hr => ?window, ?pointer, ?bytes⟩
  case window => rw [State.window_pushed8 v hnext, h.window hr]
  case pointer =>
    rw [State.sp_pushed8 v hnext, List.length_cons, BitVec.ofNat_add]
    exact State.loweredSp_of_lowered h.inRegfile (by rw [BitVec.toNat_ofNat]; omega) h.pointer
  case bytes =>
    rintro (_ | i) hi
    · exact State.top8_eq_stackByte.symm.trans (State.top8_pushed8 v hnext)
    · have hi' : i < l.length := Nat.lt_of_succ_lt_succ hi
      refine (State.stackByte_pushed8_succ v i hnext (fun hr => ?memory)
        fun hr => ⟨h.ordinary hi' hr, ?registers⟩).trans (h.bytes i hi')
      case memory =>
        have hrb : b.inRegfile k = false := h.inRegfile.symm.trans hr
        obtain ⟨hmem, -⟩ := h.usable
        rw [State.translate_data_congr hmap, State.translate_data_congr hmap, h.place_in_memory hrb hi',
          h.next_in_memory hrb]
        exact State.frame_apart (hmem hrb).1 (by omega) (by omega) hroom
      case registers =>
        have hrb : b.inRegfile k = true := h.inRegfile.symm.trans hr
        rw [State.addr_eq_of_window (h.window hrb), State.addr_eq_of_window (h.window hrb),
          h.place_in_registers hrb hi', h.next_in_registers hrb]
        exact State.addr_sub_ne b _ (by omega) (by omega)

end

/-- A word pushed first is on top with its high byte. -/
theorem pushed16 (h : b.frameOk k n) (hroom : 2 ≤ n) (hsize : n ≤ 8) (w : Word) :
    OnFrame b k n (b.pushed16 k w) [w.hi, w.lo] := by
  have hword := State.frameOk_of_le hroom h
  have htop := State.top16_pushed16 w hword
  rw [State.top16_eq_stackBytes] at htop
  have hpointer := State.sp_pushed16 w hword
  refine ⟨h, hsize, hroom, by simp, fun _ => State.window_pushed16 w hword, hpointer, ?bytes⟩
  rintro (_ | _ | i) hi
  · exact (Word.hi_word _ _).symm.trans (congrArg Word.hi htop)
  · exact (Word.lo_word _ _).symm.trans (congrArg Word.lo htop)
  · simp at hi

/-! ### Pops -/

theorem dropped {v : Byte} (h : OnFrame b k n s (v :: l)) : OnFrame b k n (s.dropped k 1) l where
  usable := h.usable
  size := h.size
  length := (Nat.le_succ _).trans h.length
  inRegfile := by rw [State.inRegfile_dropped, h.inRegfile]
  window := fun hr => by rw [State.window_dropped, h.window hr]
  pointer := by
    have hlen : l.length + 1 ≤ 8 := h.length.trans h.size
    refine State.sp_dropped_of_lowered h.inRegfile (by rw [BitVec.toNat_ofNat]; omega) ?_
    rw [h.pointer, List.length_cons, BitVec.ofNat_add]
    rfl
  bytes := fun i hi => (State.stackByte_dropped_one i (h.ordinary (Nat.succ_lt_succ hi))).trans
    (h.bytes (i + 1) (Nat.succ_lt_succ hi))

theorem pop8Ok {v : Byte} (h : OnFrame b k n s (v :: l)) : s.pop8Ok k = true := by
  cases hr : s.inRegfile k
  · simp [State.pop8Ok, hr]
  · have hplace := h.ordinary (i := 0) (by simp) hr
    rw [State.pop8Ok, State.reachable_of_ordinary (by simpa using hplace), Bool.or_true]

theorem top8 {v : Byte} (h : OnFrame b k n s (v :: l)) : s.top8 k = v :=
  State.top8_eq_stackByte.trans (h.bytes 0 (by simp))

theorem pop16Ok {x y : Byte} (h : OnFrame b k n s (x :: y :: l)) : s.pop16Ok k = true := by
  cases hr : s.inRegfile k
  · simp [State.pop16Ok, hr]
  · have hhigh := h.ordinary (i := 0) (by simp) hr
    have hlow : s.ordinary (s.spLow k + 1) = true := h.ordinary (i := 1) (by simp) hr
    rw [State.pop16Ok, State.reachable_of_ordinary (by simpa using hhigh), State.reachable_of_ordinary hlow,
      Bool.and_true, Bool.or_true]

theorem top16 {w : Word} (h : OnFrame b k n s (w.hi :: w.lo :: l)) : s.top16 k = w := by
  rw [State.top16_eq_stackBytes, h.bytes 0 (by simp), h.bytes 1 (by simp)]
  exact word_hi_lo w

theorem dropped_word {x y : Byte} (h : OnFrame b k n s (x :: y :: l)) : OnFrame b k n (s.dropped k 2) l := by
  rw [← State.dropped_one_dropped_one]
  exact h.dropped.dropped

end OnFrame

/-! ### RET after CALL and RETS after CALLS (46_control.md R385) -/

theorem State.dropped_eq_setSp (s : State) (k : Stack) (n : Byte) :
    s.dropped k n = s.setSp k ((s.dropped k n).sp k) := by
  unfold State.dropped
  split <;> simp [State.setSpLow]

/-- The segment register comes back from the byte that it is pushed as (46_control.md R377, R379). -/
theorem extractLsb'_zeroExtend_csr : ∀ g : BitVec 6, (g.zeroExtend 8).extractLsb' 0 6 = g := by decide

/-- A CALL leaves the address after it on the frame. -/
theorem callNear_onFrame {f : CallForm} {s t : State} (hframe : s.frameOk .system 2) (h : callNear f s = .ok t) :
    OnFrame s .system 2 t [s.pc.hi, s.pc.lo] := by
  obtain ⟨target, htarget, -⟩ := Res.bind_eq_ok.mp h
  rw [callNear_eq htarget (State.push16Ok_of_frameOk _ hframe), Except.ok.injEq] at h
  subst h
  exact (OnFrame.pushed16 hframe (by omega) (by omega) s.pc).control _ _ target _ _

/-- A CALLS leaves CSR and the address after it on the frame. -/
theorem callFar_onFrame {f : FarForm} {s t : State} (hframe : s.frameOk .system 3) (h : callFar f s = .ok t) :
    OnFrame s .system 3 t [s.csr.zeroExtend 8, s.pc.hi, s.pc.lo] := by
  have hpushed := OnFrame.pushed16 hframe (by omega) (by omega) s.pc
  have hnext := hpushed.next_usable (by simp) (by simp) (by simp)
  obtain ⟨g, hg, -⟩ := Res.bind_eq_ok.mp h
  rw [callFar_eq hg (State.push16Ok_of_frameOk _ (State.frameOk_of_succ hframe)) (State.push8Ok_of_frameOk hnext),
    Except.ok.injEq] at h
  subst h
  exact (hpushed.pushed8 (by simp) (by simp) (by simp) _).control _ _ g.2 g.1 _

/-- Settles O54: the pops of the return find on the frame what the pushes of the call left there. -/
theorem returnsUndoCalls : Obligations.ReturnsUndoCalls := by
  refine fun s t => ⟨fun f hframe hcall => ?near, fun f hframe hcall => ?far⟩
  case near =>
    have h := callNear_onFrame hframe (Res.outcome_eq_next.mp hcall)
    obtain ⟨hret, -, -⟩ := returnsComplete t
    rw [hret h.pop16Ok, h.top16, State.dropped_eq_setSp, h.dropped_word.sp_eq]
    rfl
  case far =>
    have h := callFar_onFrame hframe (Res.outcome_eq_next.mp hcall)
    obtain ⟨-, hrets, -⟩ := returnsComplete t
    have hcsr := extractLsb'_zeroExtend_csr s.csr
    rw [← h.top8] at hcsr
    have h1 : OnFrame s .system 3 { t.dropped .system 1 with csr := (t.top8 .system).extractLsb' 0 6 } _ :=
      h.dropped.control _ _ _ _ _
    rw [hrets _ h.pop8Ok rfl h1.pop16Ok, h1.top16, State.dropped_eq_setSp, h1.dropped_word.sp_eq, hcsr,
      State.dropped_eq_setSp]
    rfl

/-! ### IRET after the interrupt entry (46_control.md R372, 60_exceptions.md R460, R461) -/

theorem State.flagr_setReg_ordinary {s : State} {a : Byte} (v : Byte) (h : s.ordinary a = true) :
    (s.setReg a v).flagr = s.flagr := by
  obtain ⟨f, g, e⟩ := State.setReg_ordinary_frame v h
  rw [e]

theorem State.flagr_setPair_ordinary {s : State} {a : Byte} (v : Word) (h : s.ordinary a = true)
    (h' : s.ordinary (a + 1) = true) : (s.setPair a v).flagr = s.flagr := by
  obtain ⟨f, g, e⟩ := State.setPair_ordinary_frame v h h'
  rw [e]

theorem State.flagr_pushed8 {s : State} {k : Stack} (v : Byte) (h : s.frameOk k 1) :
    (s.pushed8 k v).flagr = s.flagr := by
  cases hr : s.inRegfile k
  · simp [State.pushed8_in_memory v hr]
  · have hplace := State.ordinary_of_frameOk_one h hr
    rw [State.pushed8_in_registers v hr, State.flagr_setReg_ordinary _ (by simpa using hplace)]
    simp

theorem State.flagr_pushed16 {s : State} {k : Stack} (w : Word) (h : s.frameOk k 2) :
    (s.pushed16 k w).flagr = s.flagr := by
  cases hr : s.inRegfile k
  · simp [State.pushed16_in_memory w hr]
  · obtain ⟨hhigh, hlow⟩ := State.ordinary_of_frameOk_two h hr
    rw [State.pushed16_in_registers w h hr,
      State.flagr_setPair_ordinary _ (by simpa using hhigh) (by simpa using hlow)]
    simp

/-- The bytes of CSR in an interrupt frame: one if ENCSR is 1, none otherwise (10_state.md R40). -/
def State.csrBytes (s : State) : List Byte := if s.encsr then [s.csr.zeroExtend 8] else []

theorem State.csrBytes_long {s : State} (h : s.encsr = true) : s.csrBytes = [s.csr.zeroExtend 8] := if_pos h

theorem State.csrBytes_short {s : State} (h : s.encsr = false) : s.csrBytes = [] := if_neg (by simp [h])

/-- The interrupt frame, the last byte pushed first (60_exceptions.md R460). -/
def State.interruptFrame (s : State) : List Byte := s.flagr :: (s.csrBytes ++ [s.pc.hi, s.pc.lo])

theorem State.interruptFrame_length (s : State) : s.interruptFrame.length = if s.encsr then 4 else 3 := by
  cases h : s.encsr
  · simp [State.interruptFrame, State.csrBytes_short h]
  · simp [State.interruptFrame, State.csrBytes_long h]

/-- The first two parts of the interrupt entry leave the pc and CSR on the frame and FLAGR as it was. -/
theorem pushCsr_onFrame {s : State} (hframe : s.frameOk .system (if s.encsr then 4 else 3)) :
    ∃ t, pushCsr (s.pushed16 .system s.pc) = .ok t ∧
      OnFrame s .system (if s.encsr then 4 else 3) t (s.csrBytes ++ [s.pc.hi, s.pc.lo]) ∧
      t.flagr = s.flagr ∧ t.dataMap = s.dataMap ∧ t.memRegions = s.memRegions := by
  have hroom : 2 < if s.encsr then 4 else 3 := by split <;> omega
  have hsize : (if s.encsr then 4 else 3) ≤ 8 := by split <;> omega
  have hflagr := State.flagr_pushed16 s.pc (State.frameOk_of_le hroom.le hframe)
  have hpushed := OnFrame.pushed16 hframe hroom.le hsize s.pc
  have hnext := hpushed.next_usable hroom (by simp) (by simp)
  cases hencsr : s.encsr
  · refine ⟨s.pushed16 .system s.pc, by simp [pushCsr, hencsr], ?_, hflagr, by simp, by simp⟩
    simpa [hencsr, State.csrBytes_short hencsr] using hpushed
  · refine ⟨(s.pushed16 .system s.pc).pushed8 .system (s.csr.zeroExtend 8), ?_, ?_, ?_, by simp, by simp⟩
    · simp [pushCsr, hencsr, push8_eq _ (State.push8Ok_of_frameOk hnext)]
    · simpa [hencsr, State.csrBytes_long hencsr] using hpushed.pushed8 hroom (by simp) (by simp) (s.csr.zeroExtend 8)
    · rw [State.flagr_pushed8 _ hnext, hflagr]

/-- The interrupt entry leaves its frame on the system stack. -/
theorem takeInterrupt_onFrame {q : IrqRequest} {s t : State} (hframe : s.frameOk .system (if s.encsr then 4 else 3))
    (h : takeInterrupt q s = .ok t) : OnFrame s .system (if s.encsr then 4 else 3) t s.interruptFrame := by
  have hword : s.frameOk .system 2 := State.frameOk_of_le (by split <;> omega) hframe
  obtain ⟨s2, hcsr, hpushed, hflagr, hmap, hregions⟩ := pushCsr_onFrame hframe
  have hroom : (s.csrBytes ++ [s.pc.hi, s.pc.lo]).length < if s.encsr then 4 else 3 := by
    rw [← s.interruptFrame_length]
    exact Nat.lt_succ_self _
  have hnext := hpushed.next_usable hroom hmap hregions
  rw [takeInterrupt, push16_eq (State.push16Ok_of_frameOk _ hword), Res.bind_ok, hcsr, Res.bind_ok,
    push8_eq _ (State.push8Ok_of_frameOk hnext), Res.bind_ok, Except.ok.injEq, hflagr] at h
  subst h
  exact (hpushed.pushed8 hroom hmap hregions s.flagr).control _ _ _ _ _

/-- A routine that leaves the frame, the pointer, and for a stack in the register file the window, keeps the bytes on
the frame. -/
theorem OnFrame.resumed {b s u : State} {k : Stack} {n : Nat} {l : List Byte} (h : OnFrame b k n s l)
    (hsp : u.sp k = s.sp k) (hr : u.inRegfile k = b.inRegfile k)
    (hwindow : b.inRegfile k = true → u.window = b.window)
    (hbytes : ∀ i < l.length, u.stackByte k i = s.stackByte k i) : OnFrame b k n u l :=
  { h with
    inRegfile := hr
    window := hwindow
    pointer := hsp.trans h.pointer
    bytes := fun i hi => (hbytes i hi).trans (h.bytes i hi) }

/-- The second part of IRET takes CSR from the frame, or leaves it where the frame does not hold it. -/
theorem OnFrame.csr_popped {b s t : State} {n : Nat} {l : List Byte} (h : OnFrame b .system n s (b.csrBytes ++ l))
    (hcsr : b.encsr = false → s.csr = b.csr)
    (ht : t = if b.encsr then { s.dropped .system 1 with csr := (s.top8 .system).extractLsb' 0 6 } else s) :
    (b.encsr = true → s.pop8Ok .system = true) ∧ OnFrame b .system n t l ∧ t.csr = b.csr ∧ t.flagr = s.flagr ∧
      t.mem = s.mem := by
  cases hlong : b.encsr
  · rw [State.csrBytes_short hlong] at h
    rw [hlong, if_neg Bool.false_ne_true] at ht
    subst ht
    exact ⟨nofun, h, hcsr hlong, rfl, rfl⟩
  · rw [State.csrBytes_long hlong] at h
    rw [hlong, if_pos rfl, h.top8, extractLsb'_zeroExtend_csr] at ht
    subst ht
    exact ⟨fun _ => h.pop8Ok, h.dropped.control _ _ _ _ _, rfl, State.dropped_flagr .., State.dropped_mem ..⟩

/-- IRET on an interrupt frame takes back what the entry pushed. -/
theorem exec_iret_onFrame {s u : State} {n : Nat} (h : OnFrame s .system n u s.interruptFrame)
    (hencsr : u.encsr = s.encsr) (hcsr : s.encsr = false → u.csr = s.csr) :
    ∃ v, exec .iret u = .next v ∧ v.pc = s.pc ∧ v.flagr = s.flagr ∧ v.csr = s.csr ∧ v.ssp = s.ssp ∧
      v.ien = true ∧ v.mem = u.mem := by
  have hien : ∀ c : Byte, (c ||| 0x10).getLsbD 4 = true := by decide
  obtain ⟨u1, hu1⟩ : ∃ u1, u1 = { u.dropped .system 1 with flagr := u.top8 .system } := ⟨_, rfl⟩
  have h1 : OnFrame s .system n u1 (s.csrBytes ++ [s.pc.hi, s.pc.lo]) := by
    rw [hu1]
    exact h.dropped.control _ _ _ _ _
  have hflagr1 : u1.flagr = s.flagr := by rw [hu1, h.top8]
  have hcsr1 : s.encsr = false → u1.csr = s.csr := fun hshort => by rw [hu1, State.dropped_csr, hcsr hshort]
  have hmem1 : u1.mem = u.mem := by rw [hu1, State.dropped_mem]
  obtain ⟨u2, hu2⟩ : ∃ u2, u2 =
      if s.encsr then { u1.dropped .system 1 with csr := (u1.top8 .system).extractLsb' 0 6 } else u1 := ⟨_, rfl⟩
  obtain ⟨hpop, h2, hcsr2, hflagr2, hmem2⟩ := h1.csr_popped hcsr1 hu2
  obtain ⟨-, -, hiret⟩ := returnsComplete u
  rw [hencsr] at hiret
  refine ⟨_, hiret u1 u2 h.pop8Ok hu1 hpop hu2 h2.pop16Ok, h2.top16, ?flagr, ?csr, h2.dropped_word.sp_eq, hien _,
    ?mem⟩
  case flagr => exact (State.dropped_flagr ..).trans (hflagr2.trans hflagr1)
  case csr => exact (State.dropped_csr ..).trans hcsr2
  case mem => exact (State.dropped_mem ..).trans (hmem2.trans hmem1)

/-- Settles O15: the routine keeps the interrupt frame, and IRET takes back from it what the entry pushed. -/
theorem iretResumesTheInterruptedProgram : Obligations.IretResumesTheInterruptedProgram := by
  intro q s t u hframe hentry hssp hencsr hplace hcsr hwindow hbytes
  have hpushed := takeInterrupt_onFrame hframe hentry
  have hkept : s.sspInRegfile = true → u.window = s.window := fun hr => by
    obtain ⟨hrp0, hrp1, htwin⟩ := hwindow hr
    rw [State.window, hrp0, hrp1, htwin, State.window]
  rw [← s.interruptFrame_length] at hbytes
  exact exec_iret_onFrame (hpushed.resumed hssp hplace hkept hbytes) hencsr hcsr

end Sys2Proof.Machine
end

section
/-! SUPPORT. The miscellaneous instructions: where SRP, SRP0, SRP1 and SPP place the window and the page, XCH and EXT
where each register access goes through, and the instructions that write one bit (spec/47_misc.md R421 to R437). -/

namespace Sys2Proof.Machine

/-! ### Register pointers and the page (47_misc.md R421 to R424) -/

theorem regRole_groupF : ∀ k : BitVec 4, regRole (nib 0xF k) = .paged := by decide

theorem State.addr_groupF (s : State) (k : BitVec 4) : s.addr (nib 0xF k) = nib 0xF k := by
  rw [State.addr, isGroupD, hiNib_nib, if_neg (by decide)]

/-- The registers of group F are those of the current page (10_state.md R27). -/
theorem State.reg_groupF (s : State) (k : BitVec 4) :
    s.reg (nib 0xF k) = Cells.read s.pages (16 * (s.ppr.extractLsb' 2 6).toNat + k.toNat) := by
  rw [State.reg, State.addr_groupF, State.cell, regRole_groupF]
  simp only [State.pageKey, loNib_nib, toNat_append_eq_add, Nat.reducePow]

theorem extractLsb'_append_page : ∀ pg : BitVec 6, (pg ++ 0#2).extractLsb' 2 6 = pg := by decide

/-- Settles O57: each instruction sets what the place of a working register or of a paged register depends on. -/
theorem windowAndPageInstructionsComplete : Obligations.WindowAndPageInstructionsComplete := by
  refine fun g pg s => ⟨⟨_, rfl, rfl, fun n => ?srp⟩, ⟨_, rfl, rfl, fun n hlow => ?srp0⟩,
    ⟨_, rfl, rfl, fun n hhigh => ?srp1⟩, ⟨_, rfl, rfl, fun k => ?spp⟩⟩
  case srp => exact (State.working_toNat _ n).trans (if_pos rfl)
  case srp0 => exact (State.working_toNat _ n).trans ((if_neg Bool.noConfusion).trans (if_pos hlow))
  case srp1 => exact (State.working_toNat _ n).trans ((if_neg Bool.noConfusion).trans (if_neg (Nat.not_lt.mpr hhigh)))
  case spp => rw [State.reg_groupF, extractLsb'_append_page]

/-! ### XCH and EXT (47_misc.md R425, R426) -/

theorem exchange_eq {rd rs : Reg} {s : State} (hd : s.reachable rd = true) (hs : s.reachable rs = true)
    (hs' : (s.setReg rd (s.reg rs)).reachable rs = true) :
    exchange rd rs s = .ok ((s.setReg rd (s.reg rs)).setReg rs (s.reg rd)) := by
  rw [exchange, readReg_eq hd, Res.bind_ok, readReg_eq hs, Res.bind_ok, writeReg_eq _ hd, Res.bind_ok,
    writeReg_eq _ hs']

/-- The upper byte of a sign extension repeats the sign. -/
theorem hi_signExtend : ∀ l : Byte, Word.hi (l.signExtend 16) = if l.msb then 0xFF else 0x00 := by decide

theorem signExtendPair_eq {rr : RegPair} {s : State} (h : s.pairReachable rr = true) :
    signExtendPair rr s = .ok (s.setReg rr (Word.hi ((s.reg (rr + 1)).signExtend 16))) := by
  obtain ⟨hhigh, hlow⟩ := Bool.and_eq_true_iff.mp h
  rw [signExtendPair, readReg_eq hlow, Res.bind_ok, writeReg_eq _ hhigh, hi_signExtend]

/-- Settles O58: every access of the two instructions goes through, and the byte that EXT writes is the upper one of
the extended low register. -/
theorem exchangeAndExtendComplete : Obligations.ExchangeAndExtendComplete := by
  refine fun s => ⟨?xch, ?ext⟩
  case xch =>
    rintro rd rs _ hd hs rfl hs'
    exact congrArg Res.outcome (exchange_eq hd hs hs')
  case ext =>
    intro rr h hpair hext
    obtain rfl : h = Word.hi ((s.reg (rr + 1)).signExtend 16) := by rw [← hext, Word.hi_word]
    exact congrArg Res.outcome (signExtendPair_eq hpair)

/-! ### One bit (47_misc.md R427 to R433) -/

theorem setIen_false_eq (s : State) : s.setIen false = { s with cicr := s.cicr &&& 0xEF } := by
  have hclear : ∀ c : Byte, (c &&& 0xEF) ||| 0 = c &&& 0xEF := fun c => BitVec.or_zero
  rw [State.setIen, if_neg Bool.false_ne_true, hclear]

theorem setBit_false (v : Byte) (i : Nat) : setBit v i false = v &&& ~~~(1#8 <<< i) := BitVec.or_zero

theorem setBit_carry_complement : ∀ v : Byte, setBit v 7 (!v.getLsbD 7) = v ^^^ 0x80 := by decide

/-- An update of the carry alone writes bit 7 of FLAGR (10_state.md R31). -/
theorem FlagUpdate.apply_carry (b : Bool) (v : Byte) : FlagUpdate.apply { c := some b } v = setBit v 7 b := rfl

theorem next_flagr_congr (s : State) {v w : Byte} (h : v = w) :
    (.next { s with flagr := v } : Out) = .next { s with flagr := w } := by rw [h]

/-- Settles O59: the bits that EI and DI write in CICR and the others in FLAGR are set, cleared and complemented by
masks. -/
theorem oneBitInstructionsComplete : Obligations.OneBitInstructionsComplete := by
  refine fun s => ⟨?ei, ?di, ?scf, ?rcf, ?ccf, ?sdm, ?spm, rfl, rfl, rfl, rfl⟩
  case ei => exact congrArg Host.Outcome.next (setIen_true_eq s)
  case di => exact congrArg Host.Outcome.next (setIen_false_eq s)
  case scf => exact next_flagr_congr s ((FlagUpdate.apply_carry true _).trans (setBit_true _ 7))
  case rcf => exact next_flagr_congr s ((FlagUpdate.apply_carry false _).trans (setBit_false _ 7))
  case ccf => exact next_flagr_congr s ((FlagUpdate.apply_carry _ _).trans (setBit_carry_complement _))
  case sdm => exact next_flagr_congr s (setBit_true _ 0)
  case spm => exact next_flagr_congr s (setBit_false _ 0)

/-! ### Instructions without a meaning (47_misc.md R437) -/

/-- Settles O60: ETRAP has one byte and ERET two, so the pc has passed them by one and by two. -/
theorem undescribedInstructionsStop : Obligations.UndescribedInstructionsStop :=
  fun _ => ⟨rfl, rfl⟩

end Sys2Proof.Machine
end

section
/-! SUPPORT. Instruction boundaries: a reset, a request that is accepted or not, a core that waits or is halted
(spec/60_exceptions.md R456 to R464, spec/70_reset_and_hazards.md R490, R491). -/

namespace Sys2Proof.Machine

/-! ### Boundaries without a reset (60_exceptions.md R456, R457, R463, R464) -/

theorem step_of_no_reset {s : State} (h : s.boundary.reset = none) :
    step s = proceed s.boundary.irq s.answered := by
  rw [step, stepAt, h]

theorem State.boundary_of_inputs {s : State} {b : Boundary} {rest : List Boundary} (h : s.inputs = b :: rest) :
    s.boundary = b := by
  rw [State.boundary, h]

/-- Of the entry that a boundary uses up, only ENCSR stays with the state (10_state.md R40). -/
theorem State.answered_of_inputs {s : State} {b : Boundary} {rest : List Boundary} (h : s.inputs = b :: rest) :
    s.answered = { s with inputs := rest, encsr := b.encsr.getD s.encsr, stores := [] } := by
  rw [State.answered, State.boundary_of_inputs h, h, List.tail_cons]

theorem step_of_inputs {s : State} {b : Boundary} {rest : List Boundary} (h : s.inputs = b :: rest)
    (hreset : b.reset = none) : step s = proceed b.irq s.answered := by
  have hboundary := State.boundary_of_inputs h
  rw [step_of_no_reset (by rw [hboundary, hreset]), hboundary]

section
variable {s : State} {q : IrqRequest}

theorem State.taken_of_halted (irq : Option IrqRequest) (h : s.runState = .halted) : s.taken irq = none := by
  cases irq with
  | none => rfl
  | some q => exact if_neg fun ⟨hrun, _⟩ => hrun h

theorem State.taken_of_not_accepted (h : s.accepts q = false) : s.taken (some q) = none :=
  if_neg fun ⟨_, haccepts⟩ => Bool.false_ne_true (h.symm.trans haccepts)

theorem State.taken_of_accepted (hrun : s.runState ≠ .halted) (h : s.accepts q = true) :
    s.taken (some q) = some q := if_pos ⟨hrun, h⟩

theorem State.accepts_eq_false (hnmi : q.nmi = false) (hien : s.ien = false) : s.accepts q = false := by
  rw [State.accepts, hnmi, hien, Bool.false_or]

theorem State.accepts_eq_true (h : q.nmi = true ∨ s.ien = true) : s.accepts q = true := by
  rwa [State.accepts, Bool.or_eq_true]

theorem proceed_of_taken {irq : Option IrqRequest} (h : s.taken irq = some q) :
    proceed irq s = Res.outcome (takeInterrupt q s) := by
  rw [proceed, h]

theorem proceed_of_idle {irq : Option IrqRequest} (h : s.taken irq = none) (hrun : s.runState ≠ .running) :
    proceed irq s = .next s := by
  rw [proceed, h]
  cases hr : s.runState with
  | running => exact absurd hr hrun
  | waiting => rfl
  | halted => rfl

/-- What follows a boundary depends on its request only by whether it is taken. -/
theorem proceed_congr {irq irq' : Option IrqRequest} (h : s.taken irq = s.taken irq') :
    proceed irq s = proceed irq' s := by
  rw [proceed, proceed, h]

end

/-- Settles O12: no request is taken at such a boundary, and a core that does not run stays. -/
theorem haltedAndWaitingCoresStay : Obligations.HaltedAndWaitingCoresStay := by
  intro s hreset hidle
  rw [step_of_no_reset hreset]
  rcases hidle with hhalted | ⟨hwaiting, hirq⟩
  case inl =>
    exact proceed_of_idle (State.taken_of_halted _ hhalted) fun h => RunState.noConfusion (h.symm.trans hhalted)
  case inr =>
    refine proceed_of_idle ?_ fun h => RunState.noConfusion (h.symm.trans hwaiting)
    cases hq : s.boundary.irq with
    | none => rfl
    | some q =>
      obtain ⟨hnmi, hien⟩ := hirq q hq
      exact State.taken_of_not_accepted (State.accepts_eq_false hnmi hien)

/-- Settles O13: the two boundaries leave the same state behind, and what follows depends on the request only where it
is accepted. -/
theorem requestsAreAcceptedByMask : Obligations.RequestsAreAcceptedByMask := by
  rintro s _ q rest e hrun hinputs rfl
  have hstep := step_of_inputs hinputs rfl
  refine ⟨fun hnmi hien => ?refused, fun h => ?accepted⟩
  case refused =>
    rw [hstep, step_of_inputs rfl rfl, State.answered_of_inputs hinputs]
    exact proceed_congr (State.taken_of_not_accepted (State.accepts_eq_false hnmi hien))
  case accepted =>
    rw [hstep]
    exact proceed_of_taken (State.taken_of_accepted hrun (State.accepts_eq_true h))

/-! ### Interrupt entry (60_exceptions.md R460) -/

@[simp] theorem State.pushed8_encsr (s : State) (k : Stack) (v : Byte) : (s.pushed8 k v).encsr = s.encsr := by
  unfold State.pushed8
  split <;> simp

@[simp] theorem State.pushed8_csr (s : State) (k : Stack) (v : Byte) : (s.pushed8 k v).csr = s.csr := by
  unfold State.pushed8
  split <;> simp

/-- The state after CSR has been pushed, where the interrupt frame holds it (10_state.md R40). -/
theorem pushCsr_eq {s : State} (h : s.encsr = true → s.push8Ok .system = true) :
    pushCsr s = .ok (if s.encsr then s.pushed8 .system (s.csr.zeroExtend 8) else s) := by
  unfold pushCsr
  split
  case isTrue hlong => exact push8_eq _ (h hlong)
  case isFalse => rfl

/-- The three pushes of the entry, each in the state that the one before left; none of them reaches CSR or ENCSR. -/
theorem takeInterrupt_eq {q : IrqRequest} {s s1 s2 : State} (hpc : s.push16Ok .system s.pc = true)
    (hs1 : s1 = s.pushed16 .system s.pc) (hcsr : s.encsr = true → s1.push8Ok .system = true)
    (hs2 : s2 = if s.encsr then s1.pushed8 .system (s.csr.zeroExtend 8) else s1)
    (hflagr : s2.push8Ok .system = true) :
    takeInterrupt q s = .ok { (s2.pushed8 .system s2.flagr).setIen false with
      csr := if s.encsr then q.seg else s.csr, pc := q.vector, runState := .running } := by
  have hencsr1 : s1.encsr = s.encsr := by rw [hs1, State.pushed16_encsr]
  have hcsr1 : s1.csr = s.csr := by rw [hs1, State.pushed16_csr]
  have hkept : s2.encsr = s.encsr ∧ s2.csr = s.csr := by
    rw [hs2]
    split
    · exact ⟨(State.pushed8_encsr ..).trans hencsr1, (State.pushed8_csr ..).trans hcsr1⟩
    · exact ⟨hencsr1, hcsr1⟩
  obtain ⟨hencsr2, hcsr2⟩ := hkept
  have hpushCsr : pushCsr s1 = .ok s2 := by rw [pushCsr_eq (hencsr1 ▸ hcsr), hencsr1, hcsr1, ← hs2]
  rw [takeInterrupt, push16_eq hpc, Res.bind_ok, ← hs1, hpushCsr, Res.bind_ok, push8_eq _ hflagr, Res.bind_ok]
  simp only [State.setIen_encsr, State.setIen_csr, State.pushed8_encsr, State.pushed8_csr, hencsr2, hcsr2]

/-- Settles O14: the request is accepted, and each push of the entry goes through. -/
theorem interruptEntryPushesTheFrame : Obligations.InterruptEntryPushesTheFrame := by
  rintro s _ s1 s2 s3 q rfl hrun hreset hirq haccept hpc hs1 hcsr hs2 hflagr rfl
  have htaken : s.answered.taken (some q) = some q := State.taken_of_accepted hrun (State.accepts_eq_true haccept)
  rw [step_of_no_reset hreset, hirq, proceed_of_taken htaken, takeInterrupt_eq hpc hs1 hcsr hs2 hflagr,
    Res.outcome_ok, setIen_false_eq]

/-! ### Reset (70_reset_and_hazards.md R490, R491) -/

/-- A reset comes before a request and cuts short what would follow without it. -/
theorem step_of_reset {s : State} {b : Boundary} {p : ResetParams} {rest : List Boundary} (h : s.inputs = b :: rest)
    (hreset : b.reset = some p) : step s = .next (applyReset p (cutShort p.landed b.irq s.answered)) := by
  rw [step, stepAt, State.boundary_of_inputs h, hreset]

theorem isRam_iff {m : List MemRegion} {a : PhysAddr} :
    isRam m a = true ↔ memKind m .prog a = .ram ∨ memKind m .data a = .ram := by
  rw [isRam, Bool.or_eq_true, decide_eq_true_eq, decide_eq_true_eq]

section
variable {p : ResetParams} {s : State} {a : PhysAddr}

/-- A byte of RAM that the loss of power changed is the one of the parameters. -/
theorem read_applyReset_lost {b : Byte} (hram : isRam s.memRegions a = true) (h : p.ramLost.lookup a = some b) :
    Cells.read (applyReset p s).mem a.toNat = b :=
  (Cells.read_overlay p.ramLost s.mem hram).trans (by rw [h, Option.getD_some])

/-- A byte outside RAM, or one that the loss of power did not change, is as before. -/
theorem read_applyReset_kept (h : isRam s.memRegions a = false ∨ p.ramLost.lookup a = none) :
    Cells.read (applyReset p s).mem a.toNat = Cells.read s.mem a.toNat := by
  cases hram : isRam s.memRegions a with
  | false => exact Cells.read_overlay_not p.ramLost s.mem hram
  | true =>
    have hnone : p.ramLost.lookup a = none := h.resolve_left fun hrom => Bool.false_ne_true (hrom.symm.trans hram)
    exact (Cells.read_overlay p.ramLost s.mem hram).trans (by rw [hnone, Option.getD_none])

end

/-- The stores of an outcome are those of its next state, or those that its stop at a window names. -/
theorem Out.stores_eq {o : Out} {w : List (PhysAddr × Byte)}
    (h : (∃ v, o = .next v ∧ w = v.stores) ∨ o = .refused (.unsupportedU1 w)) : Out.stores o = w := by
  rcases h with ⟨v, rfl, rfl⟩ | rfl <;> rfl

theorem Out.stores_eq_nil {o : Out} (hnext : ∀ v, o ≠ .next v) (hstop : ∀ w, o ≠ .refused (.unsupportedU1 w)) :
    Out.stores o = [] := by
  unfold Out.stores
  split
  · exact absurd rfl (hnext _)
  · exact absurd rfl (hstop _)
  · rfl

/-- A reset that finds no store of what was in progress finds memory as it was. -/
theorem read_cutShort_of_no_stores {marks : List Bool} {irq : Option IrqRequest} {s : State} (a : PhysAddr)
    (h : Out.stores (proceed irq s) = []) :
    Cells.read (cutShort marks irq s).mem a.toNat = Cells.read s.mem a.toNat := by
  rw [cutShort, Cells.read_land, h, List.zip_nil_right]
  rfl

/-- Settles O11: the reset takes the registers from its parameters, and memory as `cutShort` leaves it but for the
bytes that were lost; the step without the reset is what `cutShort` cuts short. -/
theorem resetWinsAtEveryBoundary : Obligations.ResetWinsAtEveryBoundary := by
  rintro s _ e p q rest hinputs rfl
  have hreset := step_of_reset hinputs rfl
  have hinterrupted : step { s with inputs := { encsr := e, reset := none, irq := q } :: rest } =
      proceed q s.answered := by
    rw [step_of_inputs rfl rfl, State.answered_of_inputs hinputs]
    rfl
  have hrest : s.answered.inputs = rest := by rw [State.answered_inputs, hinputs, List.tail_cons]
  have hmask : ∀ c : Byte, c &&& 0xEF &&& 0xEF = c &&& 0xEF := by decide
  have hien : ∀ c : Byte, (c &&& 0xEF).getLsbD 4 = false := by decide
  refine ⟨_, hreset, rfl, rfl, hien _, rfl, rfl, rfl, hrest, rfl, rfl, rfl, rfl, hmask _, rfl, rfl, rfl, rfl, rfl, rfl,
    fun k hk => Cells.read_normal _ _ hk, fun k hk => Cells.read_normal _ _ hk, fun a => ⟨?lost, fun hkept => ?kept⟩⟩
  case lost => exact fun b hram hlost => read_applyReset_lost (isRam_iff.mpr hram) hlost
  case kept =>
    have hafter := read_applyReset_kept (p := p) (s := cutShort p.landed q s.answered) (a := a)
      (hkept.imp_left fun hrom => Bool.eq_false_iff.mpr fun h => (isRam_iff.mp h).elim hrom.1 hrom.2)
    rw [hinterrupted]
    refine ⟨fun w hw => hafter.trans ?_, fun hnext hstop => hafter.trans ?_⟩
    · rw [cutShort, Cells.read_land, Out.stores_eq hw, State.answered_mem]
    · rw [read_cutShort_of_no_stores a (Out.stores_eq_nil hnext hstop), State.answered_mem]

end Sys2Proof.Machine
end

section
/-! SUPPORT. The trap of DIV, the stops at an odd pair address, and examples of decoding (spec/60_exceptions.md R452,
spec/93_implementation_defined.md U2, spec/95_test_vectors.md). -/

namespace Sys2Proof.Machine

/-! ### Division by zero (60_exceptions.md R452, R453) -/

theorem takeDivideByZero_eq {s t : State} (hpush : s.push16Ok .system s.pc = true)
    (ht : t = s.pushed16 .system s.pc) :
    takeDivideByZero s = .ok { t with
      pc := word (t.vectorByte Config.divideVector) (t.vectorByte (Config.divideVector + 1)) } := by
  rw [takeDivideByZero, push16_eq hpush, Res.bind_ok, ← ht]

theorem divide_of_zero {rrd : WPair} {rs : WReg} {s : State} (hpair : s.wwOk rrd = true) (hsource : s.wOk rs = true)
    (hzero : s.w rs = 0) : divide rrd rs s = takeDivideByZero s := by
  rw [divide, readWW_eq hpair, Res.bind_ok, readW_eq hsource, Res.bind_ok, if_pos hzero]

/-- Settles O46: a zero divisor leads to the trap, whose vector is at 2 and 3 of segment 0. -/
theorem divByZeroTraps : Obligations.DivByZeroTraps := by
  rintro rrd rs s t _ hpair hsource hzero hpush ht rfl
  rw [exec_div, divide_of_zero hpair hsource hzero, takeDivideByZero_eq hpush ht, Res.outcome_ok]
  rfl

/-! ### Odd pair addresses (93_implementation_defined.md U2) -/

section
variable {s : State} {f : KWordForm} {e : Refusal}

theorem aluWord_of_dst_error (op : AluOp) (hpre : KWordForm.pre f s = .ok s) (h : KWordForm.dst f s = .error e) :
    aluWord op (.k f) s = .error e := by
  rw [aluWord, AluWordForm.pre, hpre, Res.bind_ok, AluWordForm.dst, h, Res.bind_error]

theorem aluWord_of_src_error {l : Loc} (op : AluOp) (hpre : KWordForm.pre f s = .ok s)
    (hdst : KWordForm.dst f s = .ok l) (h : KWordForm.src f s = .error e) : aluWord op (.k f) s = .error e := by
  rw [aluWord, AluWordForm.pre, hpre, Res.bind_ok, AluWordForm.dst, hdst, Res.bind_ok, AluWordForm.src, h,
    Res.bind_error]

end

section
variable {s : State} {f : LdwForm} {e : Refusal}

theorem loadWord_of_dst_error (hpre : LdwForm.pre f s = .ok s) (h : LdwForm.dst f s = .error e) :
    loadWord f s = .error e := by
  rw [loadWord, hpre, Res.bind_ok, h, Res.bind_error]

theorem loadWord_of_src_error {l : Loc} (hpre : LdwForm.pre f s = .ok s) (hdst : LdwForm.dst f s = .ok l)
    (h : LdwForm.src f s = .error e) : loadWord f s = .error e := by
  rw [loadWord, hpre, Res.bind_ok, hdst, Res.bind_ok, h, Res.bind_error]

end

section
variable {s : State} {r : WReg} (hr : s.wOk r = true) (hodd : byteFlag (s.w r) = true)
include hr hodd

theorem KWordForm.dst_w7_odd (rr : RegPair) : KWordForm.dst (.w7 r rr) s = .error .unsupportedU2 := by
  rw [KWordForm.dst, readW_eq hr, Res.bind_ok, evenAddr_odd hodd, Res.bind_error]

theorem KWordForm.src_w8_odd (rr : RegPair) : KWordForm.src (.w8 rr r) s = .error .unsupportedU2 := by
  rw [KWordForm.src, readW_eq hr, Res.bind_ok, evenAddr_odd hodd, Res.bind_error]

end

section
variable {s : State} {n : Byte} {x : WReg} (hx : s.wOk x = true) (hodd : byteFlag (n + s.w x) = true)
include hx hodd

theorem LdwForm.dst_deStore_odd (p : WPair) : LdwForm.dst (.deStore n x p) s = .error .unsupportedU2 := by
  rw [LdwForm.dst, eaReg_eq n hx, Res.bind_ok, evenAddr_odd hodd, Res.bind_error]

theorem LdwForm.src_deLoad_odd (p : WPair) : LdwForm.src (.deLoad p n x) s = .error .unsupportedU2 := by
  rw [LdwForm.src, eaReg_eq n hx, Res.bind_ok, evenAddr_odd hodd, Res.bind_error]

end

/-- Settles O34: the odd address stops the part of the form that makes a pair of it, before anything is stored. -/
theorem oddPairAddressStops : Obligations.OddPairAddressStops := by
  intro s n r x rr p
  refine ⟨fun hr hodd => ?pointer, fun hx hodd => ?indexed⟩
  case pointer =>
    have hdst := KWordForm.dst_w7_odd hr hodd rr
    have hsrc := KWordForm.src_w8_odd hr hodd rr
    refine ⟨fun op => ⟨?_, ?_⟩, congrArg Res.outcome (loadWord_of_dst_error (f := .k (.w7 r rr)) rfl hdst),
      congrArg Res.outcome (loadWord_of_src_error (f := .k (.w8 rr r)) rfl rfl hsrc)⟩
    · rw [exec_ofAluWord, aluWord_of_dst_error op rfl hdst, Res.outcome_error]
    · rw [exec_ofAluWord, aluWord_of_src_error op rfl rfl hsrc, Res.outcome_error]
  case indexed =>
    exact ⟨congrArg Res.outcome (loadWord_of_dst_error rfl (LdwForm.dst_deStore_odd hx hodd p)),
      congrArg Res.outcome (loadWord_of_src_error rfl rfl (LdwForm.src_deLoad_odd hx hodd p))⟩

end Sys2Proof.Machine

namespace Sys2Proof

/-! ### Worked examples (95_test_vectors.md) -/

/-- Bytes that encode a well-formed instruction decode to it, with nothing left over. -/
theorem decode_of_encode {i : Instr} {bs : List Byte} (hbytes : encode i = bs) (hwf : i.wf = true) :
    decode bs = .ok (i, []) := by
  have h := decodeInvertsEncode i [] hwf
  rwa [List.append_nil, hbytes] at h

/-- Settles O3: the bytes are the encodings of the seven instructions, which are well-formed. -/
theorem exampleBytesDecode : Obligations.ExampleBytesDecode :=
  ⟨decode_of_encode rfl rfl, decode_of_encode rfl rfl, decode_of_encode rfl rfl, decode_of_encode rfl rfl,
    decode_of_encode rfl rfl, decode_of_encode rfl rfl, decode_of_encode rfl rfl⟩

end Sys2Proof
end
